-- ==== Sys2Proof/Word.lean ====
section
/-! DEFINITION. The word types of the device (R7, R8): every quantity is an unsigned bit vector of a stated width. -/

namespace Sys2Proof

/-- A 32-bit word: the digest state, the block, the working registers, a response (R7). -/
abbrev Word := BitVec 32

/-- A byte: a message byte, a cell of the tail buffer, the `arg` field of a command (R7, R48). -/
abbrev Byte := BitVec 8

/-- A command word as the port carries it, `cmd[15:0]` (R48). -/
abbrev Cmd := BitVec 16

end Sys2Proof
end

