-- ==== Sys2Proof/Syntax.lean ====
section
/-! DEFINITION. The command set (R50): one constructor per row of the opcode table. -/

namespace Sys2Proof

/-- The eight commands. An operand is the whole `arg` field, an unsigned 8-bit value, never extended, scaled or
shifted (R51); an index out of its legal range still spells its command (R52). -/
inductive Instr where
  /-- `INIT`: start a new digest computation (R99). -/
  | init
  /-- `PUSHB imm8`: absorb one message byte (R86). -/
  | pushb (x : Byte)
  /-- `FINAL`: pad, encode the length, finish the digest (R83). -/
  | final
  /-- `RDH idx`: read the word `H[idx]` (R94). -/
  | rdh (i : Byte)
  /-- `RDHEX idx`: read one character of the hex string (R93). -/
  | rdhex (k : Byte)
  /-- `RDDB idx`: read one byte of the 20-byte digest (R95). -/
  | rddb (k : Byte)
  /-- `RDSTAT`: read `STATUS` (R100). -/
  | rdstat
  /-- `RDCNT sel`: read half of `NBLK` (R101). -/
  | rdcnt (sel : Byte)
  deriving DecidableEq, Repr

end Sys2Proof
end

