-- ==== Sys2Proof/WellFormed.lean ====
section
/-! DEFINITION. Well-formedness.

Every value of `Instr` is a command the port can carry: its operand has exactly the 8 bits of the `arg` field, by its
type (R51). What can be ill formed is (1) an operand outside the legal range of its command (R51), which the device
refuses with `E_INDEX`, and (2) a line of assembler source (R54). -/

namespace Sys2Proof

/-- R51: the operand is one of the legal values of its command. -/
def Instr.operandLegal : Instr → Bool
  | .init => true
  | .pushb _ => true
  | .final => true
  | .rdh i => i.toNat ≤ 4
  | .rdhex k => k.toNat ≤ 39
  | .rddb k => k.toNat ≤ 19
  | .rdstat => true
  | .rdcnt sel => sel.toNat ≤ 1

/-- The mnemonics of the opcode table, as an assembler line names them (R54). -/
inductive Mnemonic where
  | INIT | PUSHB | FINAL | RDH | RDHEX | RDDB | RDSTAT | RDCNT
  deriving DecidableEq, Repr

/-- R50: the command takes an operand. -/
def Mnemonic.takesOperand : Mnemonic → Bool
  | .PUSHB | .RDH | .RDHEX | .RDDB | .RDCNT => true
  | .INIT | .FINAL | .RDSTAT => false

/-- One line of a command sequence (R54): a mnemonic with at most one operand, or `.word` with an arbitrary word. -/
inductive SourceLine where
  | command (m : Mnemonic) (operand : Option Nat)
  | word (n : Nat)
  deriving DecidableEq, Repr

/-- R54: an operand is in range 0..255, a `.word` fits 16 bits. That a line whose command takes an operand must have
one, and that a line whose command takes none may have none, is the MODEL's choice (DESIGN CHOICE, log 11). -/
def SourceLine.wellFormed : SourceLine → Bool
  | .command m none => !m.takesOperand
  | .command m (some n) => m.takesOperand && decide (n ≤ 255)
  | .word n => decide (n ≤ 0xFFFF)

end Sys2Proof
end

