-- ==== Sys2Proof/Decode.lean ====
section
/-! DEFINITION. Command word to command and back (R48 to R52), and the assembler of R54. -/

namespace Sys2Proof

/-- Why a word is reserved (R52). The device treats both alike: it refuses the word with `E_ILLEGAL` (R105). -/
inductive DecodeReject where
  /-- Opcode `0x00` or `0x09..0xFF`. -/
  | reservedOpcode
  /-- Opcode `0x01`, `0x03` or `0x07` with `arg` not zero. -/
  | argNotZero
  deriving DecidableEq, Repr

/-- `op = cmd[15:8]` (R48). -/
def opField (w : Cmd) : Byte := w.extractLsb' 8 8

/-- `arg = cmd[7:0]` (R48). -/
def argField (w : Cmd) : Byte := w.extractLsb' 0 8

/-- A command whose `arg` must be zero, because `arg` is part of the match (R50, R51). -/
def decodeBare (arg : Byte) (i : Instr) : Except DecodeReject Instr :=
  if arg = 0#8 then .ok i else .error .argNotZero

/-- The decoder: total on all 65,536 words, rejecting the reserved ones by name (R50, R52). Nothing but the word
decides which command it spells (R49). -/
def decode (w : Cmd) : Except DecodeReject Instr :=
  if opField w = 0x01#8 then decodeBare (argField w) .init
  else if opField w = 0x02#8 then .ok (.pushb (argField w))
  else if opField w = 0x03#8 then decodeBare (argField w) .final
  else if opField w = 0x04#8 then .ok (.rdh (argField w))
  else if opField w = 0x05#8 then .ok (.rdhex (argField w))
  else if opField w = 0x06#8 then .ok (.rddb (argField w))
  else if opField w = 0x07#8 then decodeBare (argField w) .rdstat
  else if opField w = 0x08#8 then .ok (.rdcnt (argField w))
  else .error .reservedOpcode

/-- The opcode of a command (R50). -/
def opcode : Instr → Byte
  | .init => 0x01#8
  | .pushb _ => 0x02#8
  | .final => 0x03#8
  | .rdh _ => 0x04#8
  | .rdhex _ => 0x05#8
  | .rddb _ => 0x06#8
  | .rdstat => 0x07#8
  | .rdcnt _ => 0x08#8

/-- The operand of a command, `0x00` when it takes none (R54). -/
def operand : Instr → Byte
  | .init => 0#8
  | .pushb x => x
  | .final => 0#8
  | .rdh i => i
  | .rdhex k => k
  | .rddb k => k
  | .rdstat => 0#8
  | .rdcnt sel => sel

/-- The encoder: `(op << 8) | arg` (R54). -/
def encode (i : Instr) : Cmd := opcode i ++ operand i

/-- The decoder on a word numbered as `spec/opcode_table.json` numbers it. A command is one 16-bit word with no byte
order inside the device (R48); the bits above `nbits` are zero (log 12). -/
def decodeTableWord (nbits w : Nat) : Option Instr :=
  match decode (BitVec.ofNat 16 (w % 2 ^ nbits)) with
  | .ok i => some i
  | .error _ => none

/-- The `match` column of R50. -/
def rowMatch : Instr → Cmd
  | .init => 0x0100#16
  | .pushb _ => 0x0200#16
  | .final => 0x0300#16
  | .rdh _ => 0x0400#16
  | .rdhex _ => 0x0500#16
  | .rddb _ => 0x0600#16
  | .rdstat => 0x0700#16
  | .rdcnt _ => 0x0800#16

/-- The `mask` column of R50. -/
def rowMask : Instr → Cmd
  | .init => 0xFFFF#16
  | .pushb _ => 0xFF00#16
  | .final => 0xFFFF#16
  | .rdh _ => 0xFF00#16
  | .rdhex _ => 0xFF00#16
  | .rddb _ => 0xFF00#16
  | .rdstat => 0xFFFF#16
  | .rdcnt _ => 0xFF00#16

/-- The command a mnemonic and an operand byte spell (R54). -/
def Mnemonic.instr (m : Mnemonic) (x : Byte) : Instr :=
  match m with
  | .INIT => .init
  | .PUSHB => .pushb x
  | .FINAL => .final
  | .RDH => .rdh x
  | .RDHEX => .rdhex x
  | .RDDB => .rddb x
  | .RDSTAT => .rdstat
  | .RDCNT => .rdcnt x

/-- The encoding of a well-formed line (R54): the command's word, or the word of `.word` as it stands. An ill-formed
line has none. -/
def assemble (l : SourceLine) : Option Cmd :=
  if l.wellFormed then
    match l with
    | .command m n => some (encode (m.instr (BitVec.ofNat 8 (n.getD 0))))
    | .word n => some (BitVec.ofNat 16 n)
  else none

end Sys2Proof
end

