-- ==== Sys2Proof/Config.lean ====
section
/-! DEFINITION. The free values of the model.

The spec leaves no parameter open (R7). What it leaves without a value is the contents of `TB`, `W`, `a..e` and `t`
after a reset (R28, U7). After an `rst` event these registers hold the values below, applied to the model's counter
`State.draws`; no proof can see what they are (log 6). -/

namespace Sys2Proof.Config

/-- The tail buffer after the `n`-th reset event (R28: unspecified). -/
opaque unspecifiedTB : Nat → Vector Byte 64

/-- The block register file after the `n`-th reset event (R28: unspecified). -/
opaque unspecifiedW : Nat → Vector Word 16

/-- The working registers `a, b, c, d, e` after the `n`-th reset event (R28: unspecified). -/
opaque unspecifiedWorking : Nat → Vector Word 5

/-- The round index after the `n`-th reset event: unspecified (R28), within the register's range 0..80 (R16). -/
opaque unspecifiedRound : Nat → Fin 81

end Sys2Proof.Config
end

