-- ==== Sys2Proof/Machine/Constants.lean ====
section
/-! DEFINITION. The constants of the hardware (R24): no command reads or writes them. -/

namespace Sys2Proof.Machine

/-- The IV, the initial value of the digest state (R11). -/
def iv : Vector Word 5 := #v[0x67452301#32, 0xEFCDAB89#32, 0x98BADCFE#32, 0x10325476#32, 0xC3D2E1F0#32]

/-- The round constant of a band (R73). -/
def K (band : Fin 4) : Word :=
  match band with
  | 0 => 0x5A827999#32
  | 1 => 0x6ED9EBA1#32
  | 2 => 0x8F1BBCDC#32
  | 3 => 0xCA62C1D6#32

/-- The terminator byte appended after the last message byte (R80). -/
def terminator : Byte := 0x80#8

/-- The largest value of the block counter, `2^55 - 1` (R19). -/
def maxBlocks : BitVec 55 := BitVec.allOnes 55

/-- The error codes of R104; 0 is no error. -/
def E_ILLEGAL : BitVec 3 := 1#3
def E_INDEX : BitVec 3 := 2#3
def E_PHASE : BitVec 3 := 3#3
def E_OVERFLOW : BitVec 3 := 4#3

/-- The fresh all-zero block of a two-pass `FINAL` (R82, R122). -/
def zeroBlock : Vector Word 16 := Vector.replicate 16 0#32

end Sys2Proof.Machine
end

