-- ==== Sys2Proof/Machine/Codec.lean ====
section
/-! DEFINITION. Integer arithmetic and the WordCodec (`40_wordcodec.md`). -/

namespace Sys2Proof.Machine

/-- Addition modulo `2^32`; the carry is discarded (R56). -/
def add32 (x y : Word) : Word := x + y

/-- Left rotation (R58). It has a meaning only for `0 < n < 32` (U10). -/
def rotl (x : Word) (n : Nat) (_ : 0 < n ∧ n < 32 := by decide) : Word := x <<< n ||| x >>> (32 - n)

/-- The mask `b AND 0xFF` on a byte held in a wider, possibly signed, integer (R62). -/
def maskByte (x : Int) : Byte := BitVec.ofInt 8 x

/-- Four bytes to a word, the first byte most significant (R62). -/
def pack32 (b0 b1 b2 b3 : Byte) : Word :=
  b0.setWidth 32 <<< 24 ||| b1.setWidth 32 <<< 16 ||| b2.setWidth 32 <<< 8 ||| b3.setWidth 32

/-- Byte `m` of a word is `w[31-8m : 24-8m]` (R63). -/
def unpack32 (w : Word) : Vector Byte 4 := Vector.ofFn fun m => w.extractLsb' (24 - 8 * m.val) 8

/-- Sixty-four bytes to a block of sixteen words (R65). -/
def packblock (P : Vector Byte 64) : Vector Word 16 :=
  Vector.ofFn fun i => pack32 P[4 * i.val] P[4 * i.val + 1] P[4 * i.val + 2] P[4 * i.val + 3]

/-- The message length in bits, `NBLK * 512 + TLEN * 8`, as 64 bits (R60, R79; not §4.3's formula, C1). -/
def totalBits (nblk : BitVec 55) (tlen : BitVec 6) : BitVec 64 :=
  BitVec.ofNat 64 (nblk.toNat * 512 + tlen.toNat * 8)

end Sys2Proof.Machine
end

