-- ==== Sys2Proof/Machine/State.lean ====
section
/-! DEFINITION. The state of the device and of its command port, as plain data (`10_state.md`, R46). -/

namespace Sys2Proof.Machine

/-- `PHASE` (R20): one bit. -/
inductive Phase where
  /-- 0: taking message bytes. -/
  | absorb
  /-- 1: `FINAL` has completed. -/
  | done
  deriving DecidableEq, Repr

/-- A response `(ok, data)` (R53). -/
structure Response where
  ok : Bool
  data : Word
  deriving DecidableEq, Repr

/-- The whole state. Field names are the spec's. -/
structure State where
  /-- DigestState (R10). -/
  H : Vector Word 5
  /-- Block and circular schedule buffer (R13). -/
  W : Vector Word 16
  /-- Working registers (R14). -/
  a : Word
  b : Word
  c : Word
  d : Word
  e : Word
  /-- Round index, 0..80 (R16). -/
  t : BitVec 7
  /-- TailBuffer cells (R17). -/
  TB : Vector Byte 64
  /-- Message bytes held in `TB` (R18). -/
  TLEN : BitVec 6
  /-- Blocks completed by `PUSHB` (R19). -/
  NBLK : BitVec 55
  /-- Which commands are accepted (R20). -/
  PHASE : Phase
  /-- Sticky error code (R21). -/
  ERR : BitVec 3
  /-- Input `rst` (R46, R117). -/
  rst : Bool
  /-- Inputs `cmd_valid` and `cmd` (R46): `some w` while the host offers the word `w` (log 3). -/
  offer : Option Cmd
  /-- Outputs `resp_valid`, `resp_ok` and `resp_data` (R46): the response to the last accepted command (log 3);
while `rst` is asserted, log 14. -/
  resp : Option Response
  /-- The MODEL's own field: how many reset events have drawn free values (DESIGN CHOICE, log 6, log 7). -/
  draws : Nat
  deriving DecidableEq, Repr

/-- Output `cmd_ready` (R46). Between steps the device executes nothing, since commands are atomic (R39; DEDUCED, log 1),
so with `rst` released it is 1 (R117). While `rst` is asserted the spec gives it no value: 0 is the MODEL's choice, since
the next step then takes no command (DESIGN CHOICE, log 13). -/
def State.cmdReady (s : State) : Bool := !s.rst

/-- Reasons for the machine to stop: none. The device has no traps (R102) and its step is total (R47): a command in
error is refused and leaves an ordinary next state (R103). -/
inductive Fault where
  deriving DecidableEq, Repr

/-- Reasons for the MODEL to give an instruction no meaning. -/
inductive Refusal where
  /-- Raised by an arm of `exec` whose instruction has no meaning yet; safe. No arm raises it. -/
  | notModelled (mnemonic : String)
  deriving DecidableEq, Repr

/-- The state right after reset (R28, R117): `H = IV`, counters and error zero, `PHASE = ABSORB`, no response pending.
`W`, `a..e`, `t` and `TB` have no reset value in the spec: zero here is the model's DESIGN CHOICE (log 5). -/
def State.reset : State where
  H := iv
  W := Vector.replicate 16 0#32
  a := 0#32
  b := 0#32
  c := 0#32
  d := 0#32
  e := 0#32
  t := 0#7
  TB := Vector.replicate 64 0#8
  TLEN := 0#6
  NBLK := 0#55
  PHASE := .absorb
  ERR := 0#3
  rst := false
  offer := none
  resp := none
  draws := 0

end Sys2Proof.Machine
end

