-- ==== Sys2Proof/Machine/Ops.lean ====
section
/-! DEFINITION. The shared operations: the tail buffer's reads and writes, the response, the refusal (which is all this
device has in the place of an exception, R102) and the way back from it, and the reset event. -/

namespace Sys2Proof.Machine

/-- `MemRead(addr, 1)`: one cell of the tail buffer (R9, R31). -/
def memRead (TB : Vector Byte 64) (addr : Fin 64) : Byte := TB[addr]

/-- `MemRead(addr, 4)`: four cells, big-endian, within the buffer (R9, R32). -/
def memRead4 (TB : Vector Byte 64) (addr : Nat) (h : addr + 4 ≤ 64) : Word :=
  pack32 TB[addr] TB[addr + 1] TB[addr + 2] TB[addr + 3]

/-- `MemWrite(addr, 1, v)`: the one store of the device (R9, R31). -/
def memWrite (TB : Vector Byte 64) (addr : Fin 64) (v : Byte) : Vector Byte 64 := TB.set addr v

/-- `resp(ok, data)` (R53). -/
def respond (ok : Bool) (data : Word) (s : State) : State := { s with resp := some ⟨ok, data⟩ }

/-- Why a command is refused (R104). -/
inductive Cause where
  /-- The word is reserved (R105). -/
  | illegal
  /-- The operand is out of range (R106). -/
  | index
  /-- A message command while `PHASE = DONE` (R107). -/
  | phase
  /-- The byte would complete block number `2^55` (R108). -/
  | overflow
  /-- A message command while `ERR` is not 0 (R109). -/
  | sticky
  deriving DecidableEq, Repr

/-- The code a cause records; the sticky refusal has none of its own (R104, R109). -/
def Cause.code : Cause → Option (BitVec 3)
  | .illegal => some E_ILLEGAL
  | .index => some E_INDEX
  | .phase => some E_PHASE
  | .overflow => some E_OVERFLOW
  | .sticky => none

/-- `ERR` after a refusal: the first error wins, and a cause without a code changes nothing (R103 item 3). -/
def recordError (err : BitVec 3) (c : Cause) : BitVec 3 :=
  if err = 0#3 then c.code.getD err else err

/-- `raise`: refuse the command (R103). Nothing changes but possibly `ERR`, and the response is `(0, 0)`. -/
def raise (c : Cause) (s : State) : State := respond false 0#32 { s with ERR := recordError s.ERR c }

/-- `INIT`'s writes, the only way back from an error (R99, R111). `TB`, `W`, `a..e` and `t` are not written. -/
def startComputation (s : State) : State :=
  { s with H := iv, NBLK := 0#55, TLEN := 0#6, PHASE := .absorb, ERR := 0#3 }

/-- What one pulse of `rst` leaves (R28, R117): the specified registers at their reset values, the unspecified ones at
free values (log 6), no response pending. A word the host still offers is not taken and stays offered (DESIGN CHOICE, log 2). -/
def resetEvent (s : State) : State :=
  { State.reset with
    TB := Config.unspecifiedTB s.draws
    W := Config.unspecifiedW s.draws
    a := (Config.unspecifiedWorking s.draws)[0]
    b := (Config.unspecifiedWorking s.draws)[1]
    c := (Config.unspecifiedWorking s.draws)[2]
    d := (Config.unspecifiedWorking s.draws)[3]
    e := (Config.unspecifiedWorking s.draws)[4]
    t := BitVec.ofNat 7 (Config.unspecifiedRound s.draws).val
    offer := s.offer
    draws := s.draws + 1 }

/-- The host offers a command word (R46). -/
def State.offerCmd (w : Cmd) (s : State) : State := { s with offer := some w }

/-- The host asserts `rst` (R46, R117). R117 gives the registers and the response port their values only for the time when
`rst` is released; that they keep what they held until the pulse step, a response still present among them
(`resp_valid` = 1), is the MODEL's choice (DESIGN CHOICE, log 14). -/
def State.assertRst (s : State) : State := { s with rst := true }

/-- The device takes the offered word; a command word is consumed once and not kept (R44, R46). -/
def State.takeOffer (s : State) : State := { s with offer := none }

end Sys2Proof.Machine
end

