-- ==== Sys2Proof/Machine/Operands.lean ====
section
/-! DEFINITION. How an index is formed (R45), and the checks a command makes before it writes anything (R110). -/

namespace Sys2Proof.Machine

/-- The fill pointer: the address the next `PUSHB` stores to (R45, R86). -/
def fillPointer (s : State) : Fin 64 := s.TLEN.toFin

/-- Circular addressing of the block registers, `W[j mod 16]` (R45, R67). -/
def slot (W : Vector Word 16) (j : Nat) : Word := W[j % 16]

/-- Immediate addressing with the index check of a read command: `n` is the number of legal values (R51, R106). -/
def indexed (n : Nat) (k : Byte) (s : State) (read : Fin n → Word) : State :=
  if h : k.toNat < n then respond true (read ⟨k.toNat, h⟩) s else raise .index s

/-- The checks of `FINAL`, in their order (R110 items 2 and 3). -/
def finalCheck (s : State) : Option Cause :=
  if s.ERR ≠ 0#3 then some .sticky
  else if s.PHASE = .done then some .phase
  else none

/-- The checks of `PUSHB`, in their order (R110 items 2 to 4). -/
def pushbCheck (s : State) : Option Cause :=
  if s.ERR ≠ 0#3 then some .sticky
  else if s.PHASE = .done then some .phase
  else if s.TLEN = 63#6 ∧ s.NBLK = maxBlocks then some .overflow
  else none

/-- A message command: refused for the cause its checks find, otherwise its effect and the response `(1, 0)` (R53). -/
def messageCommand (check : Option Cause) (effect : State → State) (s : State) : State :=
  match check with
  | some c => raise c s
  | none => respond true 0#32 (effect s)

end Sys2Proof.Machine
end

