-- ==== Sys2Proof/Machine/Schedule.lean ====
section
/-! DEFINITION. The message schedule expander in the circular form the device implements (`41_schedule.md`). -/

namespace Sys2Proof.Machine

/-- The schedule step of round `i` on the sixteen slots: nothing below 16, else the slot `i mod 16` is overwritten; all
four slots are read first (R67, R125). What this leaves in `W` after a compression follows R70 (DEDUCED, log 9). -/
def expandSlot (W : Vector Word 16) (i : Nat) : Vector Word 16 :=
  if 16 ≤ i then
    W.set (i % 16) (rotl (slot W (i - 3) ^^^ slot W (i - 8) ^^^ slot W (i - 14) ^^^ slot W i) 1) (Nat.mod_lt _ (by decide))
  else W

/-- The schedule step on the device's registers, at the start of round `t` (R67, R69). -/
def scheduleStep (s : State) : State := { s with W := expandSlot s.W s.t.toNat }

end Sys2Proof.Machine
end

