-- ==== Sys2Proof/Machine/Compressor.lean ====
section
/-! DEFINITION. The BlockCompressor, on the device's registers (`42_compressor.md`). -/

namespace Sys2Proof.Machine

/-- The band of round `i`: `i div 20`, a comparison with 20, 40 and 60 (R61, R71). -/
def band (i : Nat) : Fin 4 := if i < 20 then 0 else if i < 40 then 1 else if i < 60 then 2 else 3

/-- The round function (R72). -/
def f (band : Fin 4) (b c d : Word) : Word :=
  match band with
  | 0 => (b &&& c) ||| (~~~b &&& d)
  | 1 => b ^^^ c ^^^ d
  | 2 => (b &&& c) ||| (b &&& d) ||| (c &&& d)
  | 3 => b ^^^ c ^^^ d

/-- The five-term sum of a round (R75, R56). -/
def roundSum (i : Nat) (a b c d e wi : Word) : Word :=
  add32 (add32 (add32 (add32 (rotl a 5) (f (band i) b c d)) e) (K (band i))) wi

/-- Start of a compression: copy the state into the working registers (R74). -/
def beginCompression (s : State) : State :=
  { s with a := s.H[0], b := s.H[1], c := s.H[2], d := s.H[3], e := s.H[4], t := 0#7 }

/-- The five assignments of a round, in the order that is correct one after the other (R75, R126). -/
def rotateWorking (temp : Word) (s : State) : State :=
  let s := { s with e := s.d }
  let s := { s with d := s.c }
  let s := { s with c := rotl s.b 30 }
  let s := { s with b := s.a }
  { s with a := temp }

/-- One round: the schedule step first, then the sum over the values before the round, then the assignments (R75, R69). -/
def runRound (s : State) : State :=
  let i := s.t.toNat
  let s := scheduleStep s
  let s := rotateWorking (roundSum i s.a s.b s.c s.d s.e (slot s.W i)) s
  { s with t := s.t + 1#7 }

/-- `n` rounds, one after the other (R78). -/
def rounds : Nat → State → State
  | 0, s => s
  | n + 1, s => rounds n (runRound s)

/-- The add-back of the working registers into the state the compression started from (R76, R127). -/
def addBack (s : State) : State :=
  { s with H := #v[add32 s.H[0] s.a, add32 s.H[1] s.b, add32 s.H[2] s.c, add32 s.H[3] s.d, add32 s.H[4] s.e] }

/-- A whole compression of the block in `W`: exactly 80 rounds (R76). -/
def compress (s : State) : State := addBack (rounds 80 (beginCompression s))

end Sys2Proof.Machine
end

