-- ==== Sys2Proof/Machine/Finalizer.lean ====
section
/-! DEFINITION. The PaddingFinalizer and the command `FINAL` (`43_finalizer.md`). -/

namespace Sys2Proof.Machine

/-- The pad image: the live bytes, the terminator, zeros (R80). A value: `TB` and `TLEN` are not written. -/
def padImage (TB : Vector Byte 64) (len : Nat) : Vector Byte 64 :=
  Vector.ofFn fun j => if j.val < len then memRead TB j else if j.val = len then terminator else 0#8

/-- There is no room for the footer in the terminator's block (R81). -/
def twoPass (len : Nat) : Bool := decide (len + 1 > 56)

/-- The length footer, written over words 14 and 15, high half first (R82). -/
def writeFooter (bits : BitVec 64) (W : Vector Word 16) : Vector Word 16 :=
  (W.set 14 (bits.extractLsb' 32 32)).set 15 (bits.extractLsb' 0 32)

/-- The padding pass that precedes the footer when it does not fit: compress, then a fresh all-zero block (R83, R122). -/
def extraPass (s : State) : State := { compress s with W := zeroBlock }

/-- The effect of a `FINAL` that is not refused (R83). The length is taken before anything is appended (R79, R123), and
the padding compressions are not counted in `NBLK` (R19). -/
def finalEffect (s : State) : State :=
  let len := s.TLEN.toNat
  let bits := totalBits s.NBLK s.TLEN
  let s := { s with W := packblock (padImage s.TB len) }
  let s := if twoPass len then extraPass s else s
  let s := { s with W := writeFooter bits s.W }
  { compress s with PHASE := .done }

/-- `FINAL` (R83). -/
def execFinal (s : State) : Host.Outcome State Fault Refusal :=
  .next (messageCommand (finalCheck s) finalEffect s)

end Sys2Proof.Machine
end

