-- ==== Sys2Proof/Machine/HexEncoder.lean ====
section
/-! DEFINITION. The HexEncoder and the digest read commands (`45_hexencoder.md`). -/

namespace Sys2Proof.Machine

/-- The alphabet of the hex string, lowercase (R90). -/
def hexAlphabet : Vector Char 16 :=
  #v['0', '1', '2', '3', '4', '5', '6', '7', '8', '9', 'a', 'b', 'c', 'd', 'e', 'f']

/-- The character at position `v` of the alphabet (R90). -/
def hexdigit (v : BitVec 4) : Char := hexAlphabet[v.toFin]

/-- The 8-bit code under which the port delivers a character: ASCII (R90; PRESUMED, log 10). -/
def charCode (c : Char) : Byte := BitVec.ofNat 8 c.toNat

/-- Character `k` shows bits `[31-4j : 28-4j]` of word `k div 8`, with `j = k mod 8` (R91). -/
def hex (h : Vector Word 5) : Vector Char 40 :=
  Vector.ofFn fun k => hexdigit (h[k.val / 8].extractLsb' (28 - 4 * (k.val % 8)) 4)

/-- Byte `k` of the digest is byte `k mod 4` of word `k div 4` (R92). -/
def bytes20 (h : Vector Word 5) : Vector Byte 20 :=
  Vector.ofFn fun k => (unpack32 h[k.val / 4])[k.val % 4]

/-- `RDH i` (R94). -/
def execRdh (i : Byte) (s : State) : Host.Outcome State Fault Refusal :=
  .next (indexed 5 i s fun i => s.H[i])

/-- `RDHEX k` (R93). -/
def execRdhex (k : Byte) (s : State) : Host.Outcome State Fault Refusal :=
  .next (indexed 40 k s fun k => (charCode (hex s.H)[k]).setWidth 32)

/-- `RDDB k` (R95). -/
def execRddb (k : Byte) (s : State) : Host.Outcome State Fault Refusal :=
  .next (indexed 20 k s fun k => ((bytes20 s.H)[k]).setWidth 32)

end Sys2Proof.Machine
end

