-- ==== Sys2Proof/Machine/Streaming.lean ====
section
/-! DEFINITION. The StreamingDigest and the command `PUSHB` (`44_streaming.md`). -/

namespace Sys2Proof.Machine

/-- The block completed by the 64th byte: pack, compress, count, empty the buffer. The cells of `TB` keep their
contents (R86). -/
def completeBlock (s : State) : State :=
  let s := compress { s with W := packblock s.TB }
  { s with NBLK := s.NBLK + 1#55, TLEN := 0#6 }

/-- The effect of a `PUSHB` that is not refused: store the byte at the fill pointer, then complete the block or advance
the pointer (R86). -/
def pushbEffect (x : Byte) (s : State) : State :=
  let s := { s with TB := memWrite s.TB (fillPointer s) x }
  if s.TLEN = 63#6 then completeBlock s else { s with TLEN := s.TLEN + 1#6 }

/-- `PUSHB x` (R86). -/
def execPushb (x : Byte) (s : State) : Host.Outcome State Fault Refusal :=
  .next (messageCommand (pushbCheck s) (pushbEffect x) s)

end Sys2Proof.Machine
end

