-- ==== Sys2Proof/Machine/Flags.lean ====
section
/-! DEFINITION. Status. There are no arithmetic flags (R23); the one status word is the view `RDSTAT` returns (R22). -/

namespace Sys2Proof.Machine

/-- The bit of `PHASE` (R20). -/
def Phase.bit : Phase → BitVec 1
  | .absorb => 0#1
  | .done => 1#1

/-- `STATUS`: `TLEN || 0000 || ERR || PHASE`, zero-extended (R22, R100). -/
def status (s : State) : Word := (s.TLEN ++ 0#4 ++ s.ERR ++ s.PHASE.bit).setWidth 32

end Sys2Proof.Machine
end

