-- ==== Sys2Proof/Machine/System.lean ====
section
/-! DEFINITION. The system commands `INIT`, `RDSTAT`, `RDCNT` (`46_system.md`). -/

namespace Sys2Proof.Machine

/-- `INIT` (R99): never refused. -/
def execInit (s : State) : Host.Outcome State Fault Refusal :=
  .next (respond true 0#32 (startComputation s))

/-- `RDSTAT` (R100): never refused. -/
def execRdstat (s : State) : Host.Outcome State Fault Refusal :=
  .next (respond true (status s) s)

/-- The half of the block counter a selector names: `NBLK[31:0]` or `NBLK[54:32]`, zero-extended (R101). -/
def counterHalf (nblk : BitVec 55) (sel : Fin 2) : Word :=
  match sel with
  | 0 => nblk.extractLsb' 0 32
  | 1 => (nblk.extractLsb' 32 23).setWidth 32

/-- `RDCNT sel` (R101). -/
def execRdcnt (sel : Byte) (s : State) : Host.Outcome State Fault Refusal :=
  .next (indexed 2 sel s (counterHalf s.NBLK))

end Sys2Proof.Machine
end

