-- ==== Sys2Proof/Machine/Dispatch.lean ====
section
/-! DEFINITION. One arm per command (R50). -/

namespace Sys2Proof.Machine

/-- What a decoded command does (R47). -/
def exec (i : Instr) (s : State) : Host.Outcome State Fault Refusal :=
  match i with
  | .init => Sys2Proof.Machine.execInit s
  | .pushb x => Sys2Proof.Machine.execPushb x s
  | .final => Sys2Proof.Machine.execFinal s
  | .rdh idx => Sys2Proof.Machine.execRdh idx s
  | .rdhex k => Sys2Proof.Machine.execRdhex k s
  | .rddb k => Sys2Proof.Machine.execRddb k s
  | .rdstat => Sys2Proof.Machine.execRdstat s
  | .rdcnt sel => Sys2Proof.Machine.execRdcnt sel s

end Sys2Proof.Machine
end

