-- ==== Sys2Proof/Machine/Port.lean ====
section
/-! DEFINITION. The command port (R46, R47): what the device does with a command word it has taken. -/

namespace Sys2Proof.Machine

/-- The `exec` of R47, on every command word: the decoded command, or the refusal of a reserved word with `E_ILLEGAL`
(R105), which is decided before anything that depends on the state (R110 item 1). -/
def execWord (w : Cmd) (s : State) : Host.Outcome State Fault Refusal :=
  match decode w with
  | .ok i => exec i s
  | .error _ => .next (raise .illegal s)

/-- Between commands: the host offers nothing and the device waits with all state held, the last
response included (R116; DEDUCED, log 4); or it takes the offered
word and executes it to completion (R39). -/
def serve (s : State) : Host.Outcome State Fault Refusal :=
  match s.offer with
  | none => .next s
  | some w => execWord w s.takeOffer

/-- The word of a table row placed at the port: the low `nbits` bits, the others zero. -/
def tableCmd (nbits w : Nat) : Cmd := BitVec.ofNat 16 (w % 2 ^ nbits)

/-- The port with the word `w` offered and `rst` released, so that the next step takes `w`. -/
def presentCmd (w : Cmd) (s : State) : State := { s.offerCmd w with rst := false }

end Sys2Proof.Machine
end

