-- ==== Sys2Proof/Machine/Step.lean ====
section
/-! DEFINITION. One step of the device: a reset, a command, or waiting (R117, R39, R116). -/

namespace Sys2Proof.Machine

/-- One step. `rst` comes before an offered command (R117, log 2). -/
def step (s : State) : Host.Outcome State Fault Refusal :=
  if s.rst then .next (resetEvent s) else serve s

/-- The state in which the host offers the table word `w` to the device, so that the next step executes it. The device
has no program counter and no instruction memory (R15): the port is where its next command comes from (DESIGN CHOICE, log 3). -/
def State.withFetchWord (s : State) (nbits w : Nat) : State := presentCmd (tableCmd nbits w) s

end Sys2Proof.Machine
end

