-- ==== Sys2Proof/Machine/Assembler.lean ====
section
/-! DEFINITION. The written form of a command sequence (R54) and the pseudo-commands (R55). What R54 leaves open in the
written form is a DESIGN CHOICE (log 11). -/

namespace Sys2Proof.Machine

/-- The value of a digit in base 10 or 16; `none` for any other character. -/
def digitValue (base : Nat) (c : Char) : Option Nat :=
  let v := if '0' ≤ c ∧ c ≤ '9' then c.toNat - 0x30
    else if 'a' ≤ c ∧ c ≤ 'f' then c.toNat - 0x61 + 10
    else if 'A' ≤ c ∧ c ≤ 'F' then c.toNat - 0x41 + 10
    else 16
  if v < base then some v else none

/-- A non-empty numeral, read left to right onto `acc`. -/
def numeral (base acc : Nat) : List Char → Option Nat
  | [] => none
  | [c] => (digitValue base c).map (acc * base + ·)
  | c :: cs => (digitValue base c).bind fun v => numeral base (acc * base + v) cs

/-- An operand: a decimal numeral, or `0x` followed by hexadecimal digits (R54). -/
def parseOperand : List Char → Option Nat
  | '0' :: 'x' :: cs => numeral 16 0 cs
  | cs => numeral 10 0 cs

/-- The mnemonics, in capitals (R54). -/
def parseMnemonic (cs : List Char) : Option Mnemonic :=
  if cs = "INIT".toList then some .INIT
  else if cs = "PUSHB".toList then some .PUSHB
  else if cs = "FINAL".toList then some .FINAL
  else if cs = "RDH".toList then some .RDH
  else if cs = "RDHEX".toList then some .RDHEX
  else if cs = "RDDB".toList then some .RDDB
  else if cs = "RDSTAT".toList then some .RDSTAT
  else if cs = "RDCNT".toList then some .RDCNT
  else none

/-- The words of a line, separated by spaces; the text from `;` on is a comment (R54). -/
def lineWords (line : String) : List (List Char) :=
  ((line.toList.takeWhile (· ≠ ';')).splitOn ' ').filter (· ≠ [])

/-- A line of source (R54). `none` for a line that is no command, a comment alone among them. After `.word` R54 shows only
`0xNNNN`; that any numeral of `parseOperand` is read there, a decimal one or one of any number of hexadecimal digits, is
the MODEL's choice (DESIGN CHOICE, log 11). -/
def parseLine (line : String) : Option SourceLine :=
  match lineWords line with
  | [m] => (parseMnemonic m).map fun m => .command m none
  | [m, x] =>
    if m = ".word".toList then (parseOperand x).map .word
    else (parseMnemonic m).bind fun m => (parseOperand x).map fun n => .command m (some n)
  | _ => none

/-- The pseudo-commands (R55). -/
inductive Pseudo where
  | pushs (text : String)
  | pushx (bytes : List Byte)
  | pushr (byte : Byte) (count : Nat)
  | rddigest
  | rdhexall
  | digest (text : String)
  deriving DecidableEq, Repr

/-- The byte of an ASCII character (R55, G1); the spec gives no byte for any other. -/
def asciiByte (c : Char) : Option Byte := if c.toNat < 128 then some (BitVec.ofNat 8 c.toNat) else none

/-- One `PUSHB` per character, left to right (R55). -/
def pushText (text : String) : Option (List Instr) := text.toList.mapM fun c => (asciiByte c).map .pushb

/-- One read command for each index below `n`. -/
def readAll (n : Nat) (read : Byte → Instr) : List Instr := (List.range n).map fun k => read (BitVec.ofNat 8 k)

/-- The expansion of a pseudo-command into real commands (R55). -/
def Pseudo.expand : Pseudo → Option (List Instr)
  | .pushs text => pushText text
  | .pushx bytes => some (bytes.map .pushb)
  | .pushr byte count => some (List.replicate count (.pushb byte))
  | .rddigest => some (readAll 5 .rdh)
  | .rdhexall => some (readAll 40 .rdhex)
  | .digest text => (pushText text).map fun p => .init :: p ++ .final :: readAll 40 .rdhex

end Sys2Proof.Machine
end

