-- ==== Sys2Proof/Machine/Reference.lean ====
section
/-! DEFINITION. The pure functions of the spec: `compress_fn` (R77), `absorb_blocks` (R87), `finalize_fn` (R84),
`sha1_words` and `digest` (R96), and the padded byte string (R85). The device's commands do not call them; the
obligations say that the commands compute them. -/

namespace Sys2Proof.Machine

/-- The first `16 + n` words of the schedule of a block, by the plain recurrence over an array that keeps every word
(R66, the 80-word form of R68). -/
def scheduleArray (B : Vector Word 16) : Nat → List Word
  | 0 => B.toList
  | n + 1 =>
    let w := scheduleArray B n
    w ++ [rotl (w.getD (n + 13) 0#32 ^^^ w.getD (n + 8) 0#32 ^^^ w.getD (n + 2) 0#32 ^^^ w.getD n 0#32) 1]

/-- `w[i]` for `i < 80` (R66). -/
def scheduleWord (B : Vector Word 16) (i : Nat) : Word := (scheduleArray B 64).getD i 0#32

/-- The five working values `(a, b, c, d, e)` as one tuple (R77). -/
structure Working where
  a : Word
  b : Word
  c : Word
  d : Word
  e : Word
  deriving DecidableEq, Repr

/-- Round `i` as a simultaneous assignment (R75, R77). -/
def roundFn (i : Nat) (wi : Word) (v : Working) : Working :=
  ⟨roundSum i v.a v.b v.c v.d v.e wi, v.a, rotl v.b 30, v.c, v.d⟩

/-- The working values after the first `n` rounds with the schedule `w` (R77). -/
def roundsFn (w : Nat → Word) : Nat → Working → Working
  | 0, v => v
  | n + 1, v => roundFn n (w n) (roundsFn w n v)

/-- `compress_fn` (R77). -/
def compressFn (h : Vector Word 5) (B : Vector Word 16) : Vector Word 5 :=
  let v := roundsFn (scheduleWord B) 80 ⟨h[0], h[1], h[2], h[3], h[4]⟩
  #v[add32 h[0] v.a, add32 h[1] v.b, add32 h[2] v.c, add32 h[3] v.d, add32 h[4] v.e]

/-- The first 64 bytes of a byte string, as a chunk. -/
def chunk (X : List Byte) : Vector Byte 64 := Vector.ofFn fun j => X.getD j.val 0#8

/-- `absorb_blocks` on the first `q` chunks of a byte string (R87). -/
def absorbChunks : Nat → Vector Word 5 → List Byte → Vector Word 5
  | 0, h, _ => h
  | q + 1, h, X => absorbChunks q (compressFn h (packblock (chunk X))) (X.drop 64)

/-- `absorb_blocks`, for a byte string whose length is a multiple of 64 (R87). -/
def absorbBlocks (h : Vector Word 5) (X : List Byte) : Vector Word 5 := absorbChunks (X.length / 64) h X

/-- `finalize_fn`, of the digest state, the tail bytes and the block count (R84). -/
def finalizeFn (h : Vector Word 5) (T : List Byte) (n : Nat) : Vector Word 5 :=
  let bits := BitVec.ofNat 64 (n * 512 + T.length * 8)
  let B := packblock (chunk (T ++ [terminator] ++ List.replicate (63 - T.length) 0#8))
  if T.length + 1 > 56 then compressFn (compressFn h B) (writeFooter bits zeroBlock)
  else compressFn h (writeFooter bits B)

/-- `sha1_words` (R96). -/
def sha1Words (M : List Byte) : Vector Word 5 :=
  let q := M.length / 64
  finalizeFn (absorbBlocks iv (M.take (64 * q))) (M.drop (64 * q)) q

/-- `digest(bytes) -> hex_string` (R96). -/
def digest (M : List Byte) : String := String.ofList (hex (sha1Words M)).toList

/-- The 8-byte big-endian form of a 64-bit length (R34, R85). -/
def be64 (x : BitVec 64) : List Byte := (List.range 8).map fun m => x.extractLsb' (56 - 8 * m) 8

/-- The number of zero bytes of the padding, `(55 - L) mod 64` with `L = length(M) mod 64` (R85). -/
def zeroFill (n : Nat) : Nat := (119 - n % 64) % 64

/-- The bytes compressed over a whole computation: message, terminator, zeros, footer (R85). -/
def paddedMessage (M : List Byte) : List Byte :=
  M ++ [terminator] ++ List.replicate (zeroFill M.length) 0#8 ++ be64 (BitVec.ofNat 64 (8 * M.length))

/-- The live bytes of the tail buffer, `TB[0 .. TLEN-1]` (R17). -/
def liveTail (s : State) : List Byte := s.TB.toList.take s.TLEN.toNat

end Sys2Proof.Machine
end

