-- ==== Sys2Proof/Machine/Run.lean ====
section
/-! DEFINITION. A sequence of commands: the left fold of the step over the words the host issues (R41, R47). -/

namespace Sys2Proof.Machine

/-- The host issues one command word: it offers the word and keeps it offered until the device has taken and answered it
(R46). Where `rst` is still asserted the pulse comes first and the step after it runs the word, so that the word is
neither dropped nor left without its response; the spec says nothing of a word offered under `rst`, and this is the
MODEL's choice (DESIGN CHOICE, log 2). A word that was offered before and not yet taken is replaced (DESIGN CHOICE, log 3). -/
def issue (w : Cmd) (s : State) : Host.Outcome State Fault Refusal :=
  match step (s.offerCmd w) with
  | .next t => if s.rst then step t else .next t
  | .fault r => .fault r
  | .refused r => .refused r

/-- The host issues the words one after the other; the result is the final state and the sequence of responses (R47).
A run of R47 begins after reset; a sequence that begins while `rst` is asserted has each word run and answered all the
same, the first one after the pulse (DESIGN CHOICE, log 2). -/
def runCmds : List Cmd → State → Host.Outcome (State × List Response) Fault Refusal
  | [], s => .next (s, [])
  | w :: ws, s =>
    match issue w s with
    | .next s' =>
      match runCmds ws s' with
      | .next (s'', rs) => .next (s'', s'.resp.toList ++ rs)
      | .fault r => .fault r
      | .refused r => .refused r
    | .fault r => .fault r
    | .refused r => .refused r

end Sys2Proof.Machine
end

