-- ==== Sys2Proof/Safety.lean ====
section
/-! DEFINITION. What the claims say about a run: which message the registers stand for, when `H` is a digest, the
invariant, and what the host can see. -/

namespace Sys2Proof

open Machine

/-- The state right after a reset or an INIT, in every register that has a reset value (R28, R99, R118). -/
def Fresh (s : State) : Prop :=
  s.H = iv ∧ s.NBLK = 0#55 ∧ s.TLEN = 0#6 ∧ s.PHASE = .absorb ∧ s.ERR = 0#3

/-- The counters and the tail buffer stand for the message `M` (R25 item 4). -/
def Counts (M : List Byte) (s : State) : Prop :=
  M.length = 64 * s.NBLK.toNat + s.TLEN.toNat ∧ liveTail s = M.drop (64 * s.NBLK.toNat)

/-- The device has absorbed exactly the message `M` (R25 item 4, R87). -/
def Absorbed (M : List Byte) (s : State) : Prop :=
  Counts M s ∧ s.H = absorbBlocks iv (M.take (64 * s.NBLK.toNat))

/-- `H` is the digest of `M`, and the counters still tell its length (R83, R97). -/
def Finished (M : List Byte) (s : State) : Prop :=
  Counts M s ∧ s.H = sha1Words M

/-- The digest computation has ended and `H` is its digest (R97, R132). -/
def DigestReady (s : State) : Prop := s.PHASE = .done ∧ s.ERR = 0#3

/-- A refused response carries no data (R53). -/
def RespWellFormed (s : State) : Prop := ∀ r, s.resp = some r → r.ok = false → r.data = 0#32

/-- The invariant of the device between commands: no reserved error code (R104, U9), the round index in range (R16), a
refusal without data (R53), and `H` always the chaining value or the digest of some message the counters agree with
(R25 item 4, R97, R121). -/
def Inv (s : State) : Prop :=
  s.ERR.toNat ≤ 4 ∧ s.t.toNat ≤ 80 ∧ RespWellFormed s ∧
  (s.PHASE = .absorb → ∃ M, Absorbed M s) ∧ (s.PHASE = .done → ∃ M, Finished M s)

/-- Two states the host cannot tell apart, now or later: the observable registers and the port agree, and so do the live
bytes of the tail buffer. `W`, `a..e`, `t` and the dead cells of `TB` may differ (R26, R120). -/
def Indistinguishable (s s' : State) : Prop :=
  s.H = s'.H ∧ s.NBLK = s'.NBLK ∧ s.TLEN = s'.TLEN ∧ s.PHASE = s'.PHASE ∧ s.ERR = s'.ERR ∧
  liveTail s = liveTail s' ∧ s.rst = s'.rst ∧ s.offer = s'.offer ∧ s.resp = s'.resp

/-- The command words that push the bytes of a message, one `PUSHB` each (R87). -/
def pushCmds (M : List Byte) : List Cmd := M.map fun x => encode (.pushb x)

/-- The response `(1, 0)` of an executed command that returns nothing (R53). -/
def okNothing : Response := ⟨true, 0#32⟩

end Sys2Proof
end

