-- ==== Sys2Proof/Certificates/Slice0/Obligations.lean ====
section
/-! DEFINITION. The statements for the provers. Each docstring names the rules of spec/ it formalises. -/

open Sys2Proof Sys2Proof.Machine

/-! ### Encoding -/

/-- Words written out from the table of R50 and the examples of `95_test_vectors.md` section 2.10. -/
def Obligations.TableWordsDecode : Prop :=
  decode 0x0100#16 = .ok .init ∧ decode 0x0261#16 = .ok (.pushb 0x61#8) ∧ decode 0x02FF#16 = .ok (.pushb 0xFF#8) ∧
  decode 0x0300#16 = .ok .final ∧ decode 0x0404#16 = .ok (.rdh 4#8) ∧ decode 0x0527#16 = .ok (.rdhex 39#8) ∧
  decode 0x0613#16 = .ok (.rddb 19#8) ∧ decode 0x0700#16 = .ok .rdstat ∧ decode 0x0801#16 = .ok (.rdcnt 1#8) ∧
  decode 0x0405#16 = .ok (.rdh 5#8) ∧ decode 0x0000#16 = .error .reservedOpcode ∧
  decode 0x0101#16 = .error .argNotZero ∧ decode 0x0900#16 = .error .reservedOpcode

/-- Decode and encode agree: every command, with its operand at every value the encoding admits, is read back from its
word (R50, R54). -/
def Obligations.DecodeOfEncode : Prop := ∀ i : Instr, decode (encode i) = .ok i

/-- The other direction: a word that spells a command is that command's encoding, so no two words spell one command
and no bit of a word is dropped (R48, R50). -/
def Obligations.EncodeOfDecode : Prop := ∀ (w : Cmd) (i : Instr), decode w = .ok i → encode i = w

/-- R50: a word spells the command of the one row it matches; the rows are disjoint; a word that matches no row is
reserved. -/
def Obligations.DecodeFollowsTheTable : Prop :=
  (∀ (w : Cmd) (i : Instr), decode w = .ok i → w &&& rowMask i = rowMatch i) ∧
  (∀ (w : Cmd) (i : Instr), w &&& rowMask i = rowMatch i → ∃ j, decode w = .ok j ∧ rowMatch j = rowMatch i) ∧
  (∀ (w : Cmd) (i j : Instr), w &&& rowMask i = rowMatch i → w &&& rowMask j = rowMatch j → rowMatch i = rowMatch j) ∧
  (∀ w : Cmd, (∀ i : Instr, w &&& rowMask i ≠ rowMatch i) → ∃ r, decode w = .error r)

/-- R52, R105: which words are reserved, and that the device refuses them with `E_ILLEGAL` in every state, changing
nothing but `ERR`; every other word spells a command, which is executed. -/
def Obligations.ReservedWordsRefused : Prop :=
  ∀ (w : Cmd) (s : State),
    ((opField w = 0x00#8 ∨ 0x09 ≤ (opField w).toNat ∨
        ((opField w = 0x01#8 ∨ opField w = 0x03#8 ∨ opField w = 0x07#8) ∧ argField w ≠ 0#8)) →
      execWord w s =
        .next { s with ERR := if s.ERR = 0#3 then 1#3 else s.ERR, resp := some ⟨false, 0#32⟩ }) ∧
    ((1 ≤ (opField w).toNat ∧ (opField w).toNat ≤ 8 ∧
        ((opField w = 0x01#8 ∨ opField w = 0x03#8 ∨ opField w = 0x07#8) → argField w = 0#8)) →
      ∃ i, decode w = .ok i ∧ execWord w s = exec i s)

/-- R54 with the opcodes of R50: the line of each mnemonic assembles to the word `(op << 8) | arg`, with every operand of
0..255 where the command takes one and `0x00` where it takes none, and that word decodes to the command the mnemonic
names; `.word` places its word as it stands. -/
def Obligations.AssembledLineDecodes : Prop :=
  (assemble (.command .INIT none) = some (0x01#16 <<< 8) ∧ decode (0x01#16 <<< 8) = .ok .init) ∧
  (assemble (.command .FINAL none) = some (0x03#16 <<< 8) ∧ decode (0x03#16 <<< 8) = .ok .final) ∧
  (assemble (.command .RDSTAT none) = some (0x07#16 <<< 8) ∧ decode (0x07#16 <<< 8) = .ok .rdstat) ∧
  (∀ n : Nat, n ≤ 255 →
    (assemble (.command .PUSHB (some n)) = some (0x02#16 <<< 8 ||| BitVec.ofNat 16 n) ∧
      decode (0x02#16 <<< 8 ||| BitVec.ofNat 16 n) = .ok (.pushb (BitVec.ofNat 8 n))) ∧
    (assemble (.command .RDH (some n)) = some (0x04#16 <<< 8 ||| BitVec.ofNat 16 n) ∧
      decode (0x04#16 <<< 8 ||| BitVec.ofNat 16 n) = .ok (.rdh (BitVec.ofNat 8 n))) ∧
    (assemble (.command .RDHEX (some n)) = some (0x05#16 <<< 8 ||| BitVec.ofNat 16 n) ∧
      decode (0x05#16 <<< 8 ||| BitVec.ofNat 16 n) = .ok (.rdhex (BitVec.ofNat 8 n))) ∧
    (assemble (.command .RDDB (some n)) = some (0x06#16 <<< 8 ||| BitVec.ofNat 16 n) ∧
      decode (0x06#16 <<< 8 ||| BitVec.ofNat 16 n) = .ok (.rddb (BitVec.ofNat 8 n))) ∧
    (assemble (.command .RDCNT (some n)) = some (0x08#16 <<< 8 ||| BitVec.ofNat 16 n) ∧
      decode (0x08#16 <<< 8 ||| BitVec.ofNat 16 n) = .ok (.rdcnt (BitVec.ofNat 8 n)))) ∧
  ∀ n : Nat, n ≤ 0xFFFF → assemble (.word n) = some (BitVec.ofNat 16 n)

/-! ### The step, the reset and the port -/

/-- A step runs the decoded command: with `rst` released and the word `w` offered, the step is `exec` of the command `w`
spells, on the state in which the word has been taken (R39, R46, R47). A reserved word takes the refusal. That taking the
word clears `offer` (the host's `cmd_valid` falls) is the MODEL's choice (log 3), no rule of the spec. -/
def Obligations.StepRunsDecodedCommand : Prop :=
  ∀ (s : State) (w : Cmd), s.rst = false → s.offer = some w →
    (∀ i, decode w = .ok i → step s = exec i { s with offer := none }) ∧
    (∀ r, decode w = .error r → step s = .next (raise .illegal { s with offer := none }))

/-- `withFetchWord` offers the word and nothing else: the next step executes the command of the table word. This is about
the MODEL's own interface: that the word comes from the port with `rst` released, and that taking it clears `offer`, is
log 3; that of a `w` with more than 16 bits the low 16 count is log 12. -/
def Obligations.FetchedWordRuns : Prop :=
  ∀ (s : State) (w : Nat) (i : Instr), decodeTableWord 16 w = some i →
    step (s.withFetchWord 16 w) = exec i { s with rst := false, offer := none }

/-- Between commands the device waits with all state held (R116 says so of its state). That the last response stays at the
port as well is the MODEL's choice (DEDUCED, log 4), no rule of the spec. -/
def Obligations.IdleDeviceHoldsItsState : Prop :=
  ∀ s : State, s.rst = false → s.offer = none → step s = .next s

/-- After a reset the registers that have a reset value hold it (R28), the device is ready and no response is pending
(R117). That ONE step is the whole pulse, after which `rst` is released (`t.rst = false`), is the MODEL's choice (log 2),
no rule of the spec. -/
def Obligations.ResetLeavesTheResetValues : Prop :=
  ∀ s : State, s.rst = true →
    ∃ t, step s = .next t ∧
      t.H = #v[0x67452301#32, 0xEFCDAB89#32, 0x98BADCFE#32, 0x10325476#32, 0xC3D2E1F0#32] ∧
      t.NBLK = 0#55 ∧ t.TLEN = 0#6 ∧ t.PHASE = .absorb ∧ t.ERR = 0#3 ∧
      status t = 0#32 ∧ t.cmdReady = true ∧ t.resp = none ∧ t.rst = false

/-- The MODEL's choice (log 2), which R46 and R117 only suggest: a word offered while `rst` is asserted is not taken by
the reset and stays offered; the next step takes it. -/
def Obligations.ResetLeavesTheOffer : Prop :=
  ∀ (s t : State) (w : Cmd), s.rst = true → s.offer = some w → step s = .next t →
    t.offer = some w ∧ step t = execWord w { t with offer := none }

/-- The state right after reset holds the values of R28. -/
def Obligations.ResetStateValues : Prop :=
  State.reset.H = #v[0x67452301#32, 0xEFCDAB89#32, 0x98BADCFE#32, 0x10325476#32, 0xC3D2E1F0#32] ∧
  State.reset.NBLK = 0#55 ∧ State.reset.TLEN = 0#6 ∧ State.reset.PHASE = .absorb ∧ State.reset.ERR = 0#3 ∧
  status State.reset = 0#32

/-! ### Arithmetic and the WordCodec -/

/-- R58: bit `j` of `x` becomes bit `(j + n) mod 32`, and a rotation by 30 is a right rotation by 2. -/
def Obligations.RotlMovesEveryBit : Prop :=
  (∀ (x : Word) (n : Nat) (h : 0 < n ∧ n < 32) (j : Nat), j < 32 →
    (rotl x n h).getLsbD ((j + n) % 32) = x.getLsbD j) ∧
  ∀ x : Word, rotl x 30 = x.rotateRight 2

/-- R64: packing and unpacking are inverse to each other. -/
def Obligations.PackAndUnpackInverse : Prop :=
  (∀ b0 b1 b2 b3 : Byte, unpack32 (pack32 b0 b1 b2 b3) = #v[b0, b1, b2, b3]) ∧
  ∀ w : Word, pack32 (unpack32 w)[0] (unpack32 w)[1] (unpack32 w)[2] (unpack32 w)[3] = w

/-- R33: byte `j` of a 64-byte chunk lands in word `j div 4`, bits `[31 - 8(j mod 4) : 24 - 8(j mod 4)]`. -/
def Obligations.ByteLandsInItsWord : Prop :=
  ∀ (P : Vector Byte 64) (j : Fin 64), (packblock P)[j.val / 4].extractLsb' (24 - 8 * (j.val % 4)) 8 = P[j]

/-- R60: the message length in bits never wraps, is at most `2^64 - 8`, and is the concatenation
`NBLK || TLEN || 000`. -/
def Obligations.MessageLengthNeverWraps : Prop :=
  ∀ (n : BitVec 55) (l : BitVec 6),
    (totalBits n l).toNat = n.toNat * 512 + l.toNat * 8 ∧ (totalBits n l).toNat ≤ 2 ^ 64 - 8 ∧
    totalBits n l = (n ++ l ++ 0#3 : BitVec 64)

/-! ### Schedule and compression -/

/-- R71, R72, R73: the band of each round, the constant of each band, and the round function of each band, bit position
by bit position: choice, parity, majority, parity. -/
def Obligations.BandsFunctionsAndConstants : Prop :=
  (∀ i, i < 80 → (band i).val = i / 20) ∧
  K 0 = 0x5A827999#32 ∧ K 1 = 0x6ED9EBA1#32 ∧ K 2 = 0x8F1BBCDC#32 ∧ K 3 = 0xCA62C1D6#32 ∧
  ∀ (b c d : Word) (j : Nat), j < 32 →
    (f 0 b c d).getLsbD j = (if b.getLsbD j then c.getLsbD j else d.getLsbD j) ∧
    (f 1 b c d).getLsbD j = ((b.getLsbD j ^^ c.getLsbD j) ^^ d.getLsbD j) ∧
    (f 2 b c d).getLsbD j = decide (2 ≤ (b.getLsbD j).toNat + (c.getLsbD j).toNat + (d.getLsbD j).toNat) ∧
    f 3 b c d = f 1 b c d

/-- R66: the recurrence of the schedule, and its corner case. -/
def Obligations.ScheduleRecurrence : Prop :=
  (∀ (B : Vector Word 16) (i : Fin 16), scheduleWord B i.val = B[i]) ∧
  (∀ (B : Vector Word 16) (i : Nat), 16 ≤ i → i < 80 →
    scheduleWord B i =
      rotl (scheduleWord B (i - 3) ^^^ scheduleWord B (i - 8) ^^^ scheduleWord B (i - 14) ^^^ scheduleWord B (i - 16)) 1) ∧
  ∀ i, scheduleWord zeroBlock i = 0#32

/-- R68: the circular buffer computes the schedule: the slot that round `i` reads, after its schedule step, holds
`w[i]`. -/
def Obligations.CircularBufferComputesSchedule : Prop :=
  ∀ (s : State) (i : Nat), i < 80 →
    (rounds i (beginCompression s)).t.toNat = i ∧
    slot (scheduleStep (rounds i (beginCompression s))).W i = scheduleWord s.W i

/-- After the 80 rounds of a compression `W[s]` holds `w[64 + s]`, as R70 writes of the circular form. The spec also lets
`W` hold any value there (U1, U2 of `93_implementation_defined.md`): that the model follows R70 is its own choice
(DEDUCED, log 9). -/
def Obligations.BufferAfterCompression : Prop :=
  ∀ (s : State) (j : Fin 16), (compress s).W[j] = scheduleWord s.W (64 + j.val)

/-- R75, R67: round `i`, as a simultaneous assignment over the values before it. Below 16 the block is left alone;
from 16 on the slot `i mod 16` is overwritten, from four slots read before. The new `a` is the five-term sum modulo
`2^32` with the word of the slot after that. -/
def Obligations.RoundIsSimultaneous : Prop :=
  ∀ (s : State) (i : Nat), i < 80 → s.t = BitVec.ofNat 7 i →
    let wi := if i < 16 then slot s.W i
      else rotl (slot s.W (i - 3) ^^^ slot s.W (i - 8) ^^^ slot s.W (i - 14) ^^^ slot s.W i) 1
    (∀ j : Fin 16, (runRound s).W[j] = if 16 ≤ i ∧ j.val = i % 16 then wi else s.W[j]) ∧
    (runRound s).a.toNat =
      ((rotl s.a 5).toNat + (f (band i) s.b s.c s.d).toNat + s.e.toNat + (K (band i)).toNat + wi.toNat) % 2 ^ 32 ∧
    runRound s =
      { s with W := (runRound s).W, a := (runRound s).a, b := s.a, c := rotl s.b 30, d := s.c, e := s.d,
               t := BitVec.ofNat 7 (i + 1) }

/-- R76, R77: a compression leaves in `H` the value of the pure function `compress_fn` of the state and the block it
found, ends with `t = 80`, and touches nothing but `H`, `W`, `a..e` and `t`. -/
def Obligations.CompressionComputesCompressFn : Prop :=
  ∀ s : State,
    (compress s).H = compressFn s.H s.W ∧ (compress s).t = 80#7 ∧
    compress s =
      { s with H := (compress s).H, W := (compress s).W, a := (compress s).a, b := (compress s).b, c := (compress s).c,
               d := (compress s).d, e := (compress s).e, t := (compress s).t }

/-! ### The commands -/

/-- R99: `INIT`, in every state. `TB`, `W`, `a..e` and `t` are not written. -/
def Obligations.InitResult : Prop :=
  ∀ s : State,
    exec .init s =
      .next { s with
        H := #v[0x67452301#32, 0xEFCDAB89#32, 0x98BADCFE#32, 0x10325476#32, 0xC3D2E1F0#32]
        NBLK := 0#55
        TLEN := 0#6
        PHASE := .absorb
        ERR := 0#3
        resp := some ⟨true, 0#32⟩ }

/-- R86: `PUSHB`. Its three refusals in their order; a byte that does not complete a block is stored at `TB[TLEN]` and
only advances `TLEN`; the 64th byte packs `TB`, compresses, counts the block and empties the buffer, whose other cells
keep their contents. -/
def Obligations.PushbResult : Prop :=
  ∀ (x : Byte) (s : State),
    (s.ERR ≠ 0#3 → exec (.pushb x) s = .next { s with resp := some ⟨false, 0#32⟩ }) ∧
    (s.ERR = 0#3 → s.PHASE = .done →
      exec (.pushb x) s = .next { s with ERR := 3#3, resp := some ⟨false, 0#32⟩ }) ∧
    (s.ERR = 0#3 → s.PHASE = .absorb → s.TLEN = 63#6 → s.NBLK.toNat = 2 ^ 55 - 1 →
      exec (.pushb x) s = .next { s with ERR := 4#3, resp := some ⟨false, 0#32⟩ }) ∧
    (s.ERR = 0#3 → s.PHASE = .absorb → s.TLEN ≠ 63#6 →
      exec (.pushb x) s =
        .next { s with TB := memWrite s.TB (fillPointer s) x, TLEN := s.TLEN + 1#6, resp := some ⟨true, 0#32⟩ }) ∧
    (s.ERR = 0#3 → s.PHASE = .absorb → s.TLEN = 63#6 → s.NBLK.toNat ≠ 2 ^ 55 - 1 →
      ∃ t, exec (.pushb x) s = .next t ∧
        t.TB = memWrite s.TB (fillPointer s) x ∧ t.H = compressFn s.H (packblock t.TB) ∧
        t.NBLK.toNat = s.NBLK.toNat + 1 ∧ t.TLEN = 0#6 ∧ t.PHASE = .absorb ∧ t.ERR = 0#3 ∧
        t.resp = some ⟨true, 0#32⟩ ∧ t.rst = s.rst ∧ t.offer = s.offer ∧ t.draws = s.draws)

/-- R80, R82: the pad image is the live bytes, the terminator and zeros; the footer replaces words 14 and 15, high half
first, and no other word. -/
def Obligations.PadImageAndFooter : Prop :=
  (∀ (TB : Vector Byte 64) (len : Nat), len ≤ 63 →
    (padImage TB len).toList = TB.toList.take len ++ [0x80#8] ++ List.replicate (63 - len) 0#8) ∧
  ∀ (bits : BitVec 64) (W : Vector Word 16),
    (writeFooter bits W)[14].toNat = bits.toNat / 2 ^ 32 ∧ (writeFooter bits W)[15].toNat = bits.toNat % 2 ^ 32 ∧
    ∀ j : Fin 16, j.val < 14 → (writeFooter bits W)[j] = W[j]

/-- R83, R81: `FINAL`. Its two refusals in their order; with at most 55 bytes in the tail one compression, of the pad
image with the footer; with 56 or more two, the second of a block that is zero but for the footer. `TB`, `TLEN` and
`NBLK` are left as they were. -/
def Obligations.FinalResult : Prop :=
  ∀ s : State,
    (s.ERR ≠ 0#3 → exec .final s = .next { s with resp := some ⟨false, 0#32⟩ }) ∧
    (s.ERR = 0#3 → s.PHASE = .done → exec .final s = .next { s with ERR := 3#3, resp := some ⟨false, 0#32⟩ }) ∧
    (s.ERR = 0#3 → s.PHASE = .absorb →
      ∃ t, exec .final s = .next t ∧
        (s.TLEN.toNat ≤ 55 →
          t.H = compressFn s.H
            (writeFooter (totalBits s.NBLK s.TLEN) (packblock (padImage s.TB s.TLEN.toNat)))) ∧
        (56 ≤ s.TLEN.toNat →
          t.H = compressFn (compressFn s.H (packblock (padImage s.TB s.TLEN.toNat)))
            (writeFooter (totalBits s.NBLK s.TLEN) zeroBlock)) ∧
        t.PHASE = .done ∧ t.resp = some ⟨true, 0#32⟩ ∧ t.TB = s.TB ∧ t.TLEN = s.TLEN ∧ t.NBLK = s.NBLK ∧
        t.ERR = 0#3 ∧ t.rst = s.rst ∧ t.offer = s.offer ∧ t.draws = s.draws)

/-- R84: a `FINAL` that is not refused sets `H` to `finalize_fn` of `H`, the live tail and the block count. -/
def Obligations.FinalComputesFinalizeFn : Prop :=
  ∀ s : State, s.ERR = 0#3 → s.PHASE = .absorb →
    ∃ t, exec .final s = .next t ∧ t.H = finalizeFn s.H (liveTail s) s.NBLK.toNat

/-- R94: `RDH`. -/
def Obligations.RdhResult : Prop :=
  ∀ (i : Byte) (s : State),
    (∀ h : i.toNat < 5, exec (.rdh i) s = .next { s with resp := some ⟨true, s.H[i.toNat]⟩ }) ∧
    (5 ≤ i.toNat →
      exec (.rdh i) s =
        .next { s with ERR := if s.ERR = 0#3 then 2#3 else s.ERR, resp := some ⟨false, 0#32⟩ })

/-- R93 with R90 and R91: `RDHEX`. The answer is the ASCII code of hex digit `k mod 8`, most significant first, of word
`k div 8`. -/
def Obligations.RdhexResult : Prop :=
  ∀ (k : Byte) (s : State),
    (∀ h : k.toNat < 40,
      ∃ data, exec (.rdhex k) s = .next { s with resp := some ⟨true, data⟩ } ∧
        data.toNat =
          (let v := s.H[k.toNat / 8].toNat / 16 ^ (7 - k.toNat % 8) % 16
           if v ≤ 9 then 0x30 + v else 0x61 + (v - 10))) ∧
    (40 ≤ k.toNat →
      exec (.rdhex k) s =
        .next { s with ERR := if s.ERR = 0#3 then 2#3 else s.ERR, resp := some ⟨false, 0#32⟩ })

/-- R95 with R92: `RDDB`. The answer is byte `k mod 4`, most significant first, of word `k div 4`. -/
def Obligations.RddbResult : Prop :=
  ∀ (k : Byte) (s : State),
    (∀ h : k.toNat < 20,
      ∃ data, exec (.rddb k) s = .next { s with resp := some ⟨true, data⟩ } ∧
        data.toNat = s.H[k.toNat / 4].toNat / 256 ^ (3 - k.toNat % 4) % 256) ∧
    (20 ≤ k.toNat →
      exec (.rddb k) s =
        .next { s with ERR := if s.ERR = 0#3 then 2#3 else s.ERR, resp := some ⟨false, 0#32⟩ })

/-- R100, R22: `RDSTAT`, in every state, field by field. -/
def Obligations.RdstatResult : Prop :=
  ∀ s : State,
    ∃ data : Word, exec .rdstat s = .next { s with resp := some ⟨true, data⟩ } ∧
      data.getLsbD 0 = decide (s.PHASE = .done) ∧ data.extractLsb' 1 3 = s.ERR ∧ data.extractLsb' 4 4 = 0#4 ∧
      data.extractLsb' 8 6 = s.TLEN ∧ data.extractLsb' 14 18 = 0#18

/-- R101: `RDCNT`. The two answers are the low 32 bits of `NBLK` and the 23 bits above them. -/
def Obligations.RdcntResult : Prop :=
  ∀ (sel : Byte) (s : State),
    (sel = 0#8 →
      ∃ data, exec (.rdcnt sel) s = .next { s with resp := some ⟨true, data⟩ } ∧
        data.toNat = s.NBLK.toNat % 2 ^ 32) ∧
    (sel = 1#8 →
      ∃ data, exec (.rdcnt sel) s = .next { s with resp := some ⟨true, data⟩ } ∧
        data.toNat = s.NBLK.toNat / 2 ^ 32) ∧
    (2 ≤ sel.toNat →
      exec (.rdcnt sel) s =
        .next { s with ERR := if s.ERR = 0#3 then 2#3 else s.ERR, resp := some ⟨false, 0#32⟩ })

/-! ### The hex string and the digest bytes -/

/-- R92: characters `2k` and `2k + 1` of the hex string spell byte `k` of the digest. -/
def Obligations.HexSpellsTheBytes : Prop :=
  ∀ (h : Vector Word 5) (k : Nat) (hk : k < 20),
    (hex h)[2 * k] = hexdigit ((bytes20 h)[k].extractLsb' 4 4) ∧
    (hex h)[2 * k + 1] = hexdigit ((bytes20 h)[k].extractLsb' 0 4)

/-- R98, R90: the digest of every message has 40 characters, all of the lowercase alphabet. -/
def Obligations.DigestShape : Prop :=
  ∀ M : List Byte, (digest M).length = 40 ∧ ∀ c ∈ (digest M).toList, c ∈ "0123456789abcdef".toList

/-! ### Rules about the whole machine -/

/-- R47, R53: on every word and in every state the device answers, with exactly one response, which carries no data when
it is a refusal; and it leaves the port's inputs alone. -/
def Obligations.EveryWordIsAnswered : Prop :=
  ∀ (w : Cmd) (s : State), ∃ t r, execWord w s = .next t ∧ t.resp = some r ∧ (r.ok = false → r.data = 0#32) ∧
    t.rst = s.rst ∧ t.offer = s.offer ∧ t.draws = s.draws

/-- R103: a refused command changes nothing but possibly `ERR`, answers `(0, 0)`, and records its cause only where
no error was recorded. -/
def Obligations.RefusalChangesOnlyErr : Prop :=
  ∀ (w : Cmd) (s t : State) (data : Word), execWord w s = .next t → t.resp = some ⟨false, data⟩ →
    data = 0#32 ∧ t = { s with ERR := t.ERR, resp := t.resp } ∧ (s.ERR ≠ 0#3 → t.ERR = s.ERR) ∧
    (s.ERR = 0#3 → 1 ≤ t.ERR.toNat ∧ t.ERR.toNat ≤ 4)

/-- R104, R110: which cause a first refusal records, decided by the word first, then by the state. -/
def Obligations.CauseOfTheFirstRefusal : Prop :=
  ∀ (w : Cmd) (s t : State), execWord w s = .next t → s.ERR = 0#3 →
    (t.ERR = 1#3 ↔ ∃ r, decode w = .error r) ∧
    (t.ERR = 2#3 ↔ ∃ i, decode w = .ok i ∧ i.operandLegal = false) ∧
    (t.ERR = 3#3 ↔ s.PHASE = .done ∧ (decode w = .ok .final ∨ ∃ x, decode w = .ok (.pushb x))) ∧
    (t.ERR = 4#3 ↔ s.PHASE = .absorb ∧ s.TLEN = 63#6 ∧ s.NBLK.toNat = 2 ^ 55 - 1 ∧ ∃ x, decode w = .ok (.pushb x))

/-- R40: a read command with a legal operand executes whatever `PHASE` and `ERR` hold, and changes nothing but the
response. -/
def Obligations.ReadsChangeNothing : Prop :=
  ∀ (i : Instr) (s : State), i.operandLegal = true → i ≠ .init → i ≠ .final → (∀ x, i ≠ .pushb x) →
    ∃ data, exec i s = .next { s with resp := some ⟨true, data⟩ }

/-- R111, R21: once an error is recorded it keeps its value through every word but `INIT`, which clears it. -/
def Obligations.FirstErrorWins : Prop :=
  ∀ (w : Cmd) (s t : State), execWord w s = .next t → s.ERR ≠ 0#3 →
    (decode w = .ok .init → t.ERR = 0#3) ∧ (decode w ≠ .ok .init → t.ERR = s.ERR)

/-- R109: while an error is recorded no word but `INIT` changes any register but the response. -/
def Obligations.ErrorBlocksTheComputation : Prop :=
  ∀ (w : Cmd) (s t : State), execWord w s = .next t → s.ERR ≠ 0#3 → decode w ≠ .ok .init →
    t = { s with resp := t.resp }

/-- R12, R107: after `FINAL` no word but `INIT` changes the digest. -/
def Obligations.DigestIsImmutable : Prop :=
  ∀ (w : Cmd) (s t : State), execWord w s = .next t → s.PHASE = .done → decode w ≠ .ok .init →
    t.H = s.H ∧ t.PHASE = .done

/-- R20: `INIT` writes `ABSORB`, a `FINAL` that is not refused writes `DONE`, nothing else writes `PHASE`. -/
def Obligations.WhoWritesPhase : Prop :=
  ∀ (w : Cmd) (s t : State), execWord w s = .next t →
    (decode w = .ok .init → t.PHASE = .absorb) ∧
    (decode w = .ok .final → s.ERR = 0#3 → t.PHASE = .done) ∧
    (decode w = .ok .final → s.ERR ≠ 0#3 → t.PHASE = s.PHASE) ∧
    (decode w ≠ .ok .init → decode w ≠ .ok .final → t.PHASE = s.PHASE)

/-- R114, R19: the block counter goes up by one, without wrapping, with each executed `PUSHB` that completes a block;
`INIT` sets it to zero; no other word changes it. -/
def Obligations.BlockCounterCounts : Prop :=
  ∀ (w : Cmd) (s t : State), execWord w s = .next t →
    (decode w = .ok .init → t.NBLK = 0#55) ∧
    (∀ x, decode w = .ok (.pushb x) → s.TLEN = 63#6 → t.resp = some ⟨true, 0#32⟩ →
      t.NBLK.toNat = s.NBLK.toNat + 1) ∧
    (decode w ≠ .ok .init →
      (∀ x, decode w ≠ .ok (.pushb x)) ∨ s.TLEN ≠ 63#6 ∨ t.resp = some ⟨false, 0#32⟩ → t.NBLK = s.NBLK)

/-- R17, R31: the tail buffer is written by `PUSHB` alone, one byte at the fill pointer; every other cell reads as
before, and after every other word every cell does. -/
def Obligations.TailBufferFrame : Prop :=
  ∀ (w : Cmd) (s t : State) (addr : Fin 64), execWord w s = .next t →
    (∀ x, decode w = .ok (.pushb x) →
      (t.resp = some ⟨true, 0#32⟩ → memRead t.TB (fillPointer s) = x) ∧
      (t.resp = some ⟨false, 0#32⟩ → memRead t.TB addr = memRead s.TB addr) ∧
      (addr ≠ fillPointer s → memRead t.TB addr = memRead s.TB addr)) ∧
    ((∀ x, decode w ≠ .ok (.pushb x)) → memRead t.TB addr = memRead s.TB addr)

/-- R13, R14, R16: the block, the working registers and the round index are written by a compression alone, that is by
an executed `FINAL` and by an executed `PUSHB` of a 64th byte. -/
def Obligations.InternalRegistersFrame : Prop :=
  ∀ (i : Instr) (s t : State), exec i s = .next t →
    (i ≠ .final ∨ t.resp = some ⟨false, 0#32⟩) →
    ((∀ x, i ≠ .pushb x) ∨ s.TLEN ≠ 63#6 ∨ t.resp = some ⟨false, 0#32⟩) →
    t.W = s.W ∧ t.a = s.a ∧ t.b = s.b ∧ t.c = s.c ∧ t.d = s.d ∧ t.e = s.e ∧ t.t = s.t

/-! ### Invariants and refinement -/

/-- The reset state meets the invariant. Its clause on `t` rests on the model's choice of a reset value (log 5). -/
def Obligations.ResetMeetsInvariant : Prop := Inv State.reset

/-- Every step keeps the invariant: `ERR` is at most 4, `t` at most 80, a refusal carries no data, and `H` is always the
chaining value (in `ABSORB`) or the digest (in `DONE`) of a message whose length and tail the counters and the buffer
tell (R25, R97, R104, R121). That `t` is at most 80 after a reset event rests on the model's choice of log 6. -/
def Obligations.StepKeepsInvariant : Prop :=
  ∀ s t : State, Inv s → step s = .next t → Inv t

/-- R120: a step cannot tell apart two states that differ only in `W`, `a..e`, `t` and the dead cells of `TB`, and it
leaves two states that again differ only there. -/
def Obligations.UnspecifiedRegistersNeverSeen : Prop :=
  ∀ s s' t : State, Indistinguishable s s' → step s = .next t →
    ∃ t', step s' = .next t' ∧ Indistinguishable t t'

/-- R120, R26, over every sequence of commands: the responses do not depend on the unspecified registers. -/
def Obligations.ResponsesIgnoreUnspecifiedRegisters : Prop :=
  ∀ (ws : List Cmd) (s s' t : State) (rs : List Response), Indistinguishable s s' → runCmds ws s = .next (t, rs) →
    ∃ t', runCmds ws s' = .next (t', rs) ∧ Indistinguishable t t'

/-- R87: `absorb_blocks` folds `compress_fn` over the 64-byte chunks in order. -/
def Obligations.AbsorbBlocksFolds : Prop :=
  (∀ h, absorbBlocks h [] = h) ∧
  ∀ (h : Vector Word 5) (C X : List Byte), C.length = 64 → X.length % 64 = 0 →
    absorbBlocks h (C ++ X) = absorbBlocks (compressFn h (packblock (chunk C))) X

/-- R87: pushing the bytes of `M` from a fresh state is never refused and leaves the block count, the tail and the
chaining value of `M`. -/
def Obligations.PushingAbsorbsTheMessage : Prop :=
  ∀ (M : List Byte) (s : State), M.length < 2 ^ 61 → Fresh s → s.rst = false →
    ∃ t, runCmds (pushCmds M) s = .next (t, List.replicate M.length okNothing) ∧
      t.NBLK.toNat = M.length / 64 ∧ t.TLEN.toNat = M.length % 64 ∧ liveTail t = M.drop (64 * (M.length / 64)) ∧
      t.H = absorbBlocks iv (M.take (64 * (M.length / 64))) ∧ t.PHASE = .absorb ∧ t.ERR = 0#3

/-- R96: from a fresh state, pushing the bytes of `M` and then `FINAL` is never refused and leaves the SHA-1 words of
`M` in `H`; then `RDHEX 0` to `RDHEX 39` answer the codes of the characters of `digest(M)`. -/
def Obligations.DeviceComputesTheDigest : Prop :=
  ∀ (M : List Byte) (s : State), M.length < 2 ^ 61 → Fresh s → s.rst = false →
    ∃ t, runCmds (pushCmds M ++ [encode .final]) s = .next (t, List.replicate (M.length + 1) okNothing) ∧
      t.H = sha1Words M ∧ t.PHASE = .done ∧ t.ERR = 0#3 ∧
      ∀ (k : Nat) (hk : k < 40),
        exec (.rdhex (BitVec.ofNat 8 k)) t =
          .next { t with resp := some ⟨true, (charCode (hex (sha1Words M))[k]).setWidth 32⟩ }

/-- R55, R96: the pseudo-command `DIGEST`, from any state in which `rst` is released, whatever an earlier computation or
error left: `INIT`, the bytes, `FINAL`, and forty reads answer the digest of exactly the bytes pushed. -/
def Obligations.DigestFromAnyState : Prop :=
  ∀ (M : List Byte) (s : State), M.length < 2 ^ 61 → s.rst = false →
    ∃ t, runCmds ([encode .init] ++ pushCmds M ++ [encode .final] ++ (readAll 40 .rdhex).map encode) s =
        .next (t, List.replicate (M.length + 2) okNothing ++
          (digest M).toList.map fun c => ⟨true, (charCode c).setWidth 32⟩) ∧
      DigestReady t ∧ t.H = sha1Words M

/-- R85 item 1: the digest of a message is the plain chain of compressions over its padded byte string. -/
def Obligations.DigestIsChainOverPaddedMessage : Prop :=
  ∀ M : List Byte, sha1Words M = absorbBlocks iv (paddedMessage M)

/-- R85 items 1 and 2: the padded byte string is a whole number of blocks, `floor((n + 8) / 64) + 1` of them, with the
least number of zero bytes. -/
def Obligations.PaddedMessageLength : Prop :=
  ∀ M : List Byte,
    (paddedMessage M).length = 64 * ((M.length + 8) / 64 + 1) ∧
    zeroFill M.length < 64 ∧ (M.length + 1 + zeroFill M.length + 8) % 64 = 0

/-- R85 item 3: padding is lossless regardless of input length: two different messages never give the same padded byte
string. -/
def Obligations.PaddingIsLossless : Prop :=
  ∀ M M' : List Byte, M ≠ M' → paddedMessage M ≠ paddedMessage M'

/-! ### Sequences of commands -/

/-- R46, R47: every sequence of command words runs to its end, from every state, with exactly one response for each word.
For a state with `rst` asserted this rests on the MODEL's choice that the first word runs after the pulse (log 2). -/
def Obligations.EveryIssuedWordIsAnswered : Prop :=
  ∀ (ws : List Cmd) (s : State), ∃ t rs, runCmds ws s = .next (t, rs) ∧ rs.length = ws.length
end

