-- ==== Sys2Proof/Laws/State.lean ====
section
/-! SUPPORT. One lemma per field per update of the state, each true by `rfl`: no later proof unfolds a record update. -/

namespace Sys2Proof.Machine

section
variable (ok : Bool) (data : Word) (s : State)

@[simp] theorem respond_H : (respond ok data s).H = s.H := rfl
@[simp] theorem respond_W : (respond ok data s).W = s.W := rfl
@[simp] theorem respond_a : (respond ok data s).a = s.a := rfl
@[simp] theorem respond_b : (respond ok data s).b = s.b := rfl
@[simp] theorem respond_c : (respond ok data s).c = s.c := rfl
@[simp] theorem respond_d : (respond ok data s).d = s.d := rfl
@[simp] theorem respond_e : (respond ok data s).e = s.e := rfl
@[simp] theorem respond_t : (respond ok data s).t = s.t := rfl
@[simp] theorem respond_TB : (respond ok data s).TB = s.TB := rfl
@[simp] theorem respond_TLEN : (respond ok data s).TLEN = s.TLEN := rfl
@[simp] theorem respond_NBLK : (respond ok data s).NBLK = s.NBLK := rfl
@[simp] theorem respond_PHASE : (respond ok data s).PHASE = s.PHASE := rfl
@[simp] theorem respond_ERR : (respond ok data s).ERR = s.ERR := rfl
@[simp] theorem respond_rst : (respond ok data s).rst = s.rst := rfl
@[simp] theorem respond_offer : (respond ok data s).offer = s.offer := rfl
@[simp] theorem respond_resp : (respond ok data s).resp = some ⟨ok, data⟩ := rfl
@[simp] theorem respond_draws : (respond ok data s).draws = s.draws := rfl

end

section
variable (c : Cause) (s : State)

@[simp] theorem raise_H : (raise c s).H = s.H := rfl
@[simp] theorem raise_W : (raise c s).W = s.W := rfl
@[simp] theorem raise_a : (raise c s).a = s.a := rfl
@[simp] theorem raise_b : (raise c s).b = s.b := rfl
@[simp] theorem raise_c : (raise c s).c = s.c := rfl
@[simp] theorem raise_d : (raise c s).d = s.d := rfl
@[simp] theorem raise_e : (raise c s).e = s.e := rfl
@[simp] theorem raise_t : (raise c s).t = s.t := rfl
@[simp] theorem raise_TB : (raise c s).TB = s.TB := rfl
@[simp] theorem raise_TLEN : (raise c s).TLEN = s.TLEN := rfl
@[simp] theorem raise_NBLK : (raise c s).NBLK = s.NBLK := rfl
@[simp] theorem raise_PHASE : (raise c s).PHASE = s.PHASE := rfl
@[simp] theorem raise_ERR : (raise c s).ERR = recordError s.ERR c := rfl
@[simp] theorem raise_rst : (raise c s).rst = s.rst := rfl
@[simp] theorem raise_offer : (raise c s).offer = s.offer := rfl
@[simp] theorem raise_resp : (raise c s).resp = some ⟨false, 0#32⟩ := rfl
@[simp] theorem raise_draws : (raise c s).draws = s.draws := rfl

end

section
variable (s : State)

@[simp] theorem startComputation_H : (startComputation s).H = iv := rfl
@[simp] theorem startComputation_W : (startComputation s).W = s.W := rfl
@[simp] theorem startComputation_a : (startComputation s).a = s.a := rfl
@[simp] theorem startComputation_b : (startComputation s).b = s.b := rfl
@[simp] theorem startComputation_c : (startComputation s).c = s.c := rfl
@[simp] theorem startComputation_d : (startComputation s).d = s.d := rfl
@[simp] theorem startComputation_e : (startComputation s).e = s.e := rfl
@[simp] theorem startComputation_t : (startComputation s).t = s.t := rfl
@[simp] theorem startComputation_TB : (startComputation s).TB = s.TB := rfl
@[simp] theorem startComputation_TLEN : (startComputation s).TLEN = 0#6 := rfl
@[simp] theorem startComputation_NBLK : (startComputation s).NBLK = 0#55 := rfl
@[simp] theorem startComputation_PHASE : (startComputation s).PHASE = .absorb := rfl
@[simp] theorem startComputation_ERR : (startComputation s).ERR = 0#3 := rfl
@[simp] theorem startComputation_rst : (startComputation s).rst = s.rst := rfl
@[simp] theorem startComputation_offer : (startComputation s).offer = s.offer := rfl
@[simp] theorem startComputation_resp : (startComputation s).resp = s.resp := rfl
@[simp] theorem startComputation_draws : (startComputation s).draws = s.draws := rfl

end

section
variable (s : State)

@[simp] theorem resetEvent_H : (resetEvent s).H = iv := rfl
@[simp] theorem resetEvent_W : (resetEvent s).W = Config.unspecifiedW s.draws := rfl
@[simp] theorem resetEvent_a : (resetEvent s).a = (Config.unspecifiedWorking s.draws)[0] := rfl
@[simp] theorem resetEvent_b : (resetEvent s).b = (Config.unspecifiedWorking s.draws)[1] := rfl
@[simp] theorem resetEvent_c : (resetEvent s).c = (Config.unspecifiedWorking s.draws)[2] := rfl
@[simp] theorem resetEvent_d : (resetEvent s).d = (Config.unspecifiedWorking s.draws)[3] := rfl
@[simp] theorem resetEvent_e : (resetEvent s).e = (Config.unspecifiedWorking s.draws)[4] := rfl
@[simp] theorem resetEvent_t : (resetEvent s).t = BitVec.ofNat 7 (Config.unspecifiedRound s.draws).val := rfl
@[simp] theorem resetEvent_TB : (resetEvent s).TB = Config.unspecifiedTB s.draws := rfl
@[simp] theorem resetEvent_TLEN : (resetEvent s).TLEN = 0#6 := rfl
@[simp] theorem resetEvent_NBLK : (resetEvent s).NBLK = 0#55 := rfl
@[simp] theorem resetEvent_PHASE : (resetEvent s).PHASE = .absorb := rfl
@[simp] theorem resetEvent_ERR : (resetEvent s).ERR = 0#3 := rfl
@[simp] theorem resetEvent_rst : (resetEvent s).rst = false := rfl
@[simp] theorem resetEvent_offer : (resetEvent s).offer = s.offer := rfl
@[simp] theorem resetEvent_resp : (resetEvent s).resp = none := rfl
@[simp] theorem resetEvent_draws : (resetEvent s).draws = s.draws + 1 := rfl

end

section
variable (w : Cmd) (s : State)

@[simp] theorem offerCmd_H : (State.offerCmd w s).H = s.H := rfl
@[simp] theorem offerCmd_W : (State.offerCmd w s).W = s.W := rfl
@[simp] theorem offerCmd_a : (State.offerCmd w s).a = s.a := rfl
@[simp] theorem offerCmd_b : (State.offerCmd w s).b = s.b := rfl
@[simp] theorem offerCmd_c : (State.offerCmd w s).c = s.c := rfl
@[simp] theorem offerCmd_d : (State.offerCmd w s).d = s.d := rfl
@[simp] theorem offerCmd_e : (State.offerCmd w s).e = s.e := rfl
@[simp] theorem offerCmd_t : (State.offerCmd w s).t = s.t := rfl
@[simp] theorem offerCmd_TB : (State.offerCmd w s).TB = s.TB := rfl
@[simp] theorem offerCmd_TLEN : (State.offerCmd w s).TLEN = s.TLEN := rfl
@[simp] theorem offerCmd_NBLK : (State.offerCmd w s).NBLK = s.NBLK := rfl
@[simp] theorem offerCmd_PHASE : (State.offerCmd w s).PHASE = s.PHASE := rfl
@[simp] theorem offerCmd_ERR : (State.offerCmd w s).ERR = s.ERR := rfl
@[simp] theorem offerCmd_rst : (State.offerCmd w s).rst = s.rst := rfl
@[simp] theorem offerCmd_offer : (State.offerCmd w s).offer = some w := rfl
@[simp] theorem offerCmd_resp : (State.offerCmd w s).resp = s.resp := rfl
@[simp] theorem offerCmd_draws : (State.offerCmd w s).draws = s.draws := rfl

end

section
variable (s : State)

@[simp] theorem assertRst_H : (State.assertRst s).H = s.H := rfl
@[simp] theorem assertRst_W : (State.assertRst s).W = s.W := rfl
@[simp] theorem assertRst_a : (State.assertRst s).a = s.a := rfl
@[simp] theorem assertRst_b : (State.assertRst s).b = s.b := rfl
@[simp] theorem assertRst_c : (State.assertRst s).c = s.c := rfl
@[simp] theorem assertRst_d : (State.assertRst s).d = s.d := rfl
@[simp] theorem assertRst_e : (State.assertRst s).e = s.e := rfl
@[simp] theorem assertRst_t : (State.assertRst s).t = s.t := rfl
@[simp] theorem assertRst_TB : (State.assertRst s).TB = s.TB := rfl
@[simp] theorem assertRst_TLEN : (State.assertRst s).TLEN = s.TLEN := rfl
@[simp] theorem assertRst_NBLK : (State.assertRst s).NBLK = s.NBLK := rfl
@[simp] theorem assertRst_PHASE : (State.assertRst s).PHASE = s.PHASE := rfl
@[simp] theorem assertRst_ERR : (State.assertRst s).ERR = s.ERR := rfl
@[simp] theorem assertRst_rst : (State.assertRst s).rst = true := rfl
@[simp] theorem assertRst_offer : (State.assertRst s).offer = s.offer := rfl
@[simp] theorem assertRst_resp : (State.assertRst s).resp = s.resp := rfl
@[simp] theorem assertRst_draws : (State.assertRst s).draws = s.draws := rfl

end

section
variable (s : State)

@[simp] theorem takeOffer_H : (State.takeOffer s).H = s.H := rfl
@[simp] theorem takeOffer_W : (State.takeOffer s).W = s.W := rfl
@[simp] theorem takeOffer_a : (State.takeOffer s).a = s.a := rfl
@[simp] theorem takeOffer_b : (State.takeOffer s).b = s.b := rfl
@[simp] theorem takeOffer_c : (State.takeOffer s).c = s.c := rfl
@[simp] theorem takeOffer_d : (State.takeOffer s).d = s.d := rfl
@[simp] theorem takeOffer_e : (State.takeOffer s).e = s.e := rfl
@[simp] theorem takeOffer_t : (State.takeOffer s).t = s.t := rfl
@[simp] theorem takeOffer_TB : (State.takeOffer s).TB = s.TB := rfl
@[simp] theorem takeOffer_TLEN : (State.takeOffer s).TLEN = s.TLEN := rfl
@[simp] theorem takeOffer_NBLK : (State.takeOffer s).NBLK = s.NBLK := rfl
@[simp] theorem takeOffer_PHASE : (State.takeOffer s).PHASE = s.PHASE := rfl
@[simp] theorem takeOffer_ERR : (State.takeOffer s).ERR = s.ERR := rfl
@[simp] theorem takeOffer_rst : (State.takeOffer s).rst = s.rst := rfl
@[simp] theorem takeOffer_offer : (State.takeOffer s).offer = none := rfl
@[simp] theorem takeOffer_resp : (State.takeOffer s).resp = s.resp := rfl
@[simp] theorem takeOffer_draws : (State.takeOffer s).draws = s.draws := rfl

end

section
variable (w : Cmd) (s : State)

@[simp] theorem presentCmd_H : (presentCmd w s).H = s.H := rfl
@[simp] theorem presentCmd_W : (presentCmd w s).W = s.W := rfl
@[simp] theorem presentCmd_a : (presentCmd w s).a = s.a := rfl
@[simp] theorem presentCmd_b : (presentCmd w s).b = s.b := rfl
@[simp] theorem presentCmd_c : (presentCmd w s).c = s.c := rfl
@[simp] theorem presentCmd_d : (presentCmd w s).d = s.d := rfl
@[simp] theorem presentCmd_e : (presentCmd w s).e = s.e := rfl
@[simp] theorem presentCmd_t : (presentCmd w s).t = s.t := rfl
@[simp] theorem presentCmd_TB : (presentCmd w s).TB = s.TB := rfl
@[simp] theorem presentCmd_TLEN : (presentCmd w s).TLEN = s.TLEN := rfl
@[simp] theorem presentCmd_NBLK : (presentCmd w s).NBLK = s.NBLK := rfl
@[simp] theorem presentCmd_PHASE : (presentCmd w s).PHASE = s.PHASE := rfl
@[simp] theorem presentCmd_ERR : (presentCmd w s).ERR = s.ERR := rfl
@[simp] theorem presentCmd_rst : (presentCmd w s).rst = false := rfl
@[simp] theorem presentCmd_offer : (presentCmd w s).offer = some w := rfl
@[simp] theorem presentCmd_resp : (presentCmd w s).resp = s.resp := rfl
@[simp] theorem presentCmd_draws : (presentCmd w s).draws = s.draws := rfl

end

section
variable (s : State)

@[simp] theorem beginCompression_H : (beginCompression s).H = s.H := rfl
@[simp] theorem beginCompression_W : (beginCompression s).W = s.W := rfl
@[simp] theorem beginCompression_a : (beginCompression s).a = s.H[0] := rfl
@[simp] theorem beginCompression_b : (beginCompression s).b = s.H[1] := rfl
@[simp] theorem beginCompression_c : (beginCompression s).c = s.H[2] := rfl
@[simp] theorem beginCompression_d : (beginCompression s).d = s.H[3] := rfl
@[simp] theorem beginCompression_e : (beginCompression s).e = s.H[4] := rfl
@[simp] theorem beginCompression_t : (beginCompression s).t = 0#7 := rfl
@[simp] theorem beginCompression_TB : (beginCompression s).TB = s.TB := rfl
@[simp] theorem beginCompression_TLEN : (beginCompression s).TLEN = s.TLEN := rfl
@[simp] theorem beginCompression_NBLK : (beginCompression s).NBLK = s.NBLK := rfl
@[simp] theorem beginCompression_PHASE : (beginCompression s).PHASE = s.PHASE := rfl
@[simp] theorem beginCompression_ERR : (beginCompression s).ERR = s.ERR := rfl
@[simp] theorem beginCompression_rst : (beginCompression s).rst = s.rst := rfl
@[simp] theorem beginCompression_offer : (beginCompression s).offer = s.offer := rfl
@[simp] theorem beginCompression_resp : (beginCompression s).resp = s.resp := rfl
@[simp] theorem beginCompression_draws : (beginCompression s).draws = s.draws := rfl

end

section
variable (s : State)

@[simp] theorem scheduleStep_H : (scheduleStep s).H = s.H := rfl
@[simp] theorem scheduleStep_W : (scheduleStep s).W = expandSlot s.W s.t.toNat := rfl
@[simp] theorem scheduleStep_a : (scheduleStep s).a = s.a := rfl
@[simp] theorem scheduleStep_b : (scheduleStep s).b = s.b := rfl
@[simp] theorem scheduleStep_c : (scheduleStep s).c = s.c := rfl
@[simp] theorem scheduleStep_d : (scheduleStep s).d = s.d := rfl
@[simp] theorem scheduleStep_e : (scheduleStep s).e = s.e := rfl
@[simp] theorem scheduleStep_t : (scheduleStep s).t = s.t := rfl
@[simp] theorem scheduleStep_TB : (scheduleStep s).TB = s.TB := rfl
@[simp] theorem scheduleStep_TLEN : (scheduleStep s).TLEN = s.TLEN := rfl
@[simp] theorem scheduleStep_NBLK : (scheduleStep s).NBLK = s.NBLK := rfl
@[simp] theorem scheduleStep_PHASE : (scheduleStep s).PHASE = s.PHASE := rfl
@[simp] theorem scheduleStep_ERR : (scheduleStep s).ERR = s.ERR := rfl
@[simp] theorem scheduleStep_rst : (scheduleStep s).rst = s.rst := rfl
@[simp] theorem scheduleStep_offer : (scheduleStep s).offer = s.offer := rfl
@[simp] theorem scheduleStep_resp : (scheduleStep s).resp = s.resp := rfl
@[simp] theorem scheduleStep_draws : (scheduleStep s).draws = s.draws := rfl

end

section
variable (temp : Word) (s : State)

@[simp] theorem rotateWorking_H : (rotateWorking temp s).H = s.H := rfl
@[simp] theorem rotateWorking_W : (rotateWorking temp s).W = s.W := rfl
@[simp] theorem rotateWorking_a : (rotateWorking temp s).a = temp := rfl
@[simp] theorem rotateWorking_b : (rotateWorking temp s).b = s.a := rfl
@[simp] theorem rotateWorking_c : (rotateWorking temp s).c = rotl s.b 30 := rfl
@[simp] theorem rotateWorking_d : (rotateWorking temp s).d = s.c := rfl
@[simp] theorem rotateWorking_e : (rotateWorking temp s).e = s.d := rfl
@[simp] theorem rotateWorking_t : (rotateWorking temp s).t = s.t := rfl
@[simp] theorem rotateWorking_TB : (rotateWorking temp s).TB = s.TB := rfl
@[simp] theorem rotateWorking_TLEN : (rotateWorking temp s).TLEN = s.TLEN := rfl
@[simp] theorem rotateWorking_NBLK : (rotateWorking temp s).NBLK = s.NBLK := rfl
@[simp] theorem rotateWorking_PHASE : (rotateWorking temp s).PHASE = s.PHASE := rfl
@[simp] theorem rotateWorking_ERR : (rotateWorking temp s).ERR = s.ERR := rfl
@[simp] theorem rotateWorking_rst : (rotateWorking temp s).rst = s.rst := rfl
@[simp] theorem rotateWorking_offer : (rotateWorking temp s).offer = s.offer := rfl
@[simp] theorem rotateWorking_resp : (rotateWorking temp s).resp = s.resp := rfl
@[simp] theorem rotateWorking_draws : (rotateWorking temp s).draws = s.draws := rfl

end

section
variable (s : State)

@[simp] theorem runRound_H : (runRound s).H = s.H := rfl
@[simp] theorem runRound_W : (runRound s).W = expandSlot s.W s.t.toNat := rfl
@[simp] theorem runRound_a : (runRound s).a = roundSum s.t.toNat s.a s.b s.c s.d s.e (slot (expandSlot s.W s.t.toNat) s.t.toNat) := rfl
@[simp] theorem runRound_b : (runRound s).b = s.a := rfl
@[simp] theorem runRound_c : (runRound s).c = rotl s.b 30 := rfl
@[simp] theorem runRound_d : (runRound s).d = s.c := rfl
@[simp] theorem runRound_e : (runRound s).e = s.d := rfl
@[simp] theorem runRound_t : (runRound s).t = s.t + 1#7 := rfl
@[simp] theorem runRound_TB : (runRound s).TB = s.TB := rfl
@[simp] theorem runRound_TLEN : (runRound s).TLEN = s.TLEN := rfl
@[simp] theorem runRound_NBLK : (runRound s).NBLK = s.NBLK := rfl
@[simp] theorem runRound_PHASE : (runRound s).PHASE = s.PHASE := rfl
@[simp] theorem runRound_ERR : (runRound s).ERR = s.ERR := rfl
@[simp] theorem runRound_rst : (runRound s).rst = s.rst := rfl
@[simp] theorem runRound_offer : (runRound s).offer = s.offer := rfl
@[simp] theorem runRound_resp : (runRound s).resp = s.resp := rfl
@[simp] theorem runRound_draws : (runRound s).draws = s.draws := rfl

end

section
variable (s : State)

@[simp] theorem addBack_H : (addBack s).H = #v[add32 s.H[0] s.a, add32 s.H[1] s.b, add32 s.H[2] s.c, add32 s.H[3] s.d, add32 s.H[4] s.e] := rfl
@[simp] theorem addBack_W : (addBack s).W = s.W := rfl
@[simp] theorem addBack_a : (addBack s).a = s.a := rfl
@[simp] theorem addBack_b : (addBack s).b = s.b := rfl
@[simp] theorem addBack_c : (addBack s).c = s.c := rfl
@[simp] theorem addBack_d : (addBack s).d = s.d := rfl
@[simp] theorem addBack_e : (addBack s).e = s.e := rfl
@[simp] theorem addBack_t : (addBack s).t = s.t := rfl
@[simp] theorem addBack_TB : (addBack s).TB = s.TB := rfl
@[simp] theorem addBack_TLEN : (addBack s).TLEN = s.TLEN := rfl
@[simp] theorem addBack_NBLK : (addBack s).NBLK = s.NBLK := rfl
@[simp] theorem addBack_PHASE : (addBack s).PHASE = s.PHASE := rfl
@[simp] theorem addBack_ERR : (addBack s).ERR = s.ERR := rfl
@[simp] theorem addBack_rst : (addBack s).rst = s.rst := rfl
@[simp] theorem addBack_offer : (addBack s).offer = s.offer := rfl
@[simp] theorem addBack_resp : (addBack s).resp = s.resp := rfl
@[simp] theorem addBack_draws : (addBack s).draws = s.draws := rfl

end

end Sys2Proof.Machine
end

