-- ==== Sys2Proof/Laws/Compressor.lean ====
section
/-! SUPPORT. What the rounds and a whole compression can touch: `W`, `a..e`, `t`, and `H` by the add-back alone. -/

namespace Sys2Proof.Machine

@[simp] theorem rounds_zero (s : State) : rounds 0 s = s := rfl

theorem rounds_succ (n : Nat) (s : State) : rounds (n + 1) s = rounds n (runRound s) := rfl

/-- The last of `n + 1` rounds, instead of the first. -/
theorem rounds_succ_last (n : Nat) (s : State) : rounds (n + 1) s = runRound (rounds n s) := by
  induction n generalizing s with
  | zero => rfl
  | succ n ih => rw [rounds_succ, ih, ← rounds_succ]

/-- A field that a round leaves alone is left alone by any number of rounds. -/
theorem rounds_keep {α : Type} (field : State → α) (h : ∀ s, field (runRound s) = field s) (n : Nat) (s : State) :
    field (rounds n s) = field s := by
  induction n with
  | zero => rfl
  | succ n ih => rw [rounds_succ_last, h, ih]

section
variable (n : Nat) (s : State)

@[simp] theorem rounds_H : (rounds n s).H = s.H := rounds_keep State.H (fun _ => rfl) n s
@[simp] theorem rounds_TB : (rounds n s).TB = s.TB := rounds_keep State.TB (fun _ => rfl) n s
@[simp] theorem rounds_TLEN : (rounds n s).TLEN = s.TLEN := rounds_keep State.TLEN (fun _ => rfl) n s
@[simp] theorem rounds_NBLK : (rounds n s).NBLK = s.NBLK := rounds_keep State.NBLK (fun _ => rfl) n s
@[simp] theorem rounds_PHASE : (rounds n s).PHASE = s.PHASE := rounds_keep State.PHASE (fun _ => rfl) n s
@[simp] theorem rounds_ERR : (rounds n s).ERR = s.ERR := rounds_keep State.ERR (fun _ => rfl) n s
@[simp] theorem rounds_rst : (rounds n s).rst = s.rst := rounds_keep State.rst (fun _ => rfl) n s
@[simp] theorem rounds_offer : (rounds n s).offer = s.offer := rounds_keep State.offer (fun _ => rfl) n s
@[simp] theorem rounds_resp : (rounds n s).resp = s.resp := rounds_keep State.resp (fun _ => rfl) n s
@[simp] theorem rounds_draws : (rounds n s).draws = s.draws := rounds_keep State.draws (fun _ => rfl) n s

/-- The round index counts the rounds (R16). -/
theorem rounds_t : (rounds n s).t = s.t + BitVec.ofNat 7 n := by
  induction n with
  | zero => simp
  | succ n ih => rw [rounds_succ_last, runRound_t, ih, BitVec.ofNat_add, BitVec.add_assoc]

end

section
variable (s : State)

@[simp] theorem compress_TB : (compress s).TB = s.TB := by simp [compress]
@[simp] theorem compress_TLEN : (compress s).TLEN = s.TLEN := by simp [compress]
@[simp] theorem compress_NBLK : (compress s).NBLK = s.NBLK := by simp [compress]
@[simp] theorem compress_PHASE : (compress s).PHASE = s.PHASE := by simp [compress]
@[simp] theorem compress_ERR : (compress s).ERR = s.ERR := by simp [compress]
@[simp] theorem compress_rst : (compress s).rst = s.rst := by simp [compress]
@[simp] theorem compress_offer : (compress s).offer = s.offer := by simp [compress]
@[simp] theorem compress_resp : (compress s).resp = s.resp := by simp [compress]
@[simp] theorem compress_draws : (compress s).draws = s.draws := by simp [compress]

/-- A compression ends when `t = 80` (R16). -/
@[simp] theorem compress_t : (compress s).t = 80#7 := by simp [compress, rounds_t]

end

end Sys2Proof.Machine
end

