-- ==== Sys2Proof/Laws/Memory.lean ====
section
/-! SUPPORT. The laws of the tail buffer: a read after the write of the same cell gives the value written, every other
cell is left alone, and a four-byte read is the packing of four one-byte reads (R9, R31). -/

namespace Sys2Proof.Machine

@[simp] theorem memRead_memWrite_same (TB : Vector Byte 64) (addr : Fin 64) (v : Byte) :
    memRead (memWrite TB addr v) addr = v := by
  simp [memRead, memWrite]

theorem memRead_memWrite_other (TB : Vector Byte 64) {addr other : Fin 64} (v : Byte) (h : other ≠ addr) :
    memRead (memWrite TB addr v) other = memRead TB other := by
  have h' : addr.val ≠ other.val := fun e => h (Fin.ext e.symm)
  simp [memRead, memWrite, h']

/-- Two buffers that read alike everywhere are one buffer: the representation is canonical (log 8). -/
theorem tb_ext {TB TB' : Vector Byte 64} (h : ∀ addr, memRead TB addr = memRead TB' addr) : TB = TB' := by
  ext1 i hi
  exact h ⟨i, hi⟩

theorem memRead4_eq_pack32 (TB : Vector Byte 64) (addr : Nat) (h : addr + 4 ≤ 64) :
    memRead4 TB addr h =
      pack32 (memRead TB ⟨addr, by omega⟩) (memRead TB ⟨addr + 1, by omega⟩) (memRead TB ⟨addr + 2, by omega⟩)
        (memRead TB ⟨addr + 3, by omega⟩) := rfl

/-- `packblock` reads a full tail buffer by sixteen four-byte reads at multiples of 4 (R31, R65). -/
theorem packblock_getElem (P : Vector Byte 64) (i : Nat) (h : i < 16) :
    (packblock P)[i] = memRead4 P (4 * i) (by omega) := by
  simp [packblock, memRead4]

end Sys2Proof.Machine
end

