-- ==== Sys2Proof/Laws/Ops.lean ====
section
/-! SUPPORT. What each shared operation can do, said once: the checks, the two shapes of a command, the step. -/

namespace Sys2Proof.Machine

/-- A refusal changes nothing but `ERR` and the response (R103). -/
theorem raise_eq (c : Cause) (s : State) :
    raise c s = { s with ERR := recordError s.ERR c, resp := some ⟨false, 0#32⟩ } := rfl

theorem recordError_of_ne_zero {err : BitVec 3} (h : err ≠ 0#3) (c : Cause) : recordError err c = err := by
  simp [recordError, h]

@[simp] theorem recordError_sticky (err : BitVec 3) : recordError err .sticky = err := by
  simp [recordError, Cause.code]

theorem recordError_zero (c : Cause) : recordError 0#3 c = c.code.getD 0#3 := by simp [recordError]

/-- An indexed read either answers its value or is refused with `E_INDEX`; nothing else happens (R106). -/
theorem indexed_cases (n : Nat) (k : Byte) (s : State) (read : Fin n → Word) :
    (∃ h : k.toNat < n, indexed n k s read = respond true (read ⟨k.toNat, h⟩) s) ∨
    (n ≤ k.toNat ∧ indexed n k s read = raise .index s) := by
  by_cases h : k.toNat < n
  · exact .inl ⟨h, by simp [indexed, h]⟩
  · exact .inr ⟨by omega, by simp [indexed, h]⟩

theorem indexed_legal {n : Nat} {k : Byte} (h : k.toNat < n) (s : State) (read : Fin n → Word) :
    indexed n k s read = respond true (read ⟨k.toNat, h⟩) s := by simp [indexed, h]

theorem indexed_illegal {n : Nat} {k : Byte} (h : n ≤ k.toNat) (s : State) (read : Fin n → Word) :
    indexed n k s read = raise .index s := by simp [indexed, Nat.not_lt.mpr h]

/-- A message command is refused for the cause of its check, or has its effect and answers `(1, 0)` (R53). -/
theorem messageCommand_cases (check : Option Cause) (effect : State → State) (s : State) :
    (∃ c, check = some c ∧ messageCommand check effect s = raise c s) ∨
    (check = none ∧ messageCommand check effect s = respond true 0#32 (effect s)) := by
  cases check with
  | none => exact .inr ⟨rfl, rfl⟩
  | some c => exact .inl ⟨c, rfl, rfl⟩

/-- `FINAL` is not refused exactly in `ABSORB` without an error (R110). -/
theorem finalCheck_none_iff (s : State) : finalCheck s = none ↔ s.ERR = 0#3 ∧ s.PHASE = .absorb := by
  unfold finalCheck
  cases hp : s.PHASE <;> by_cases he : s.ERR = 0#3 <;> simp [he]

/-- `PUSHB` is not refused exactly in `ABSORB` without an error, below the longest message (R110). -/
theorem pushbCheck_none_iff (s : State) :
    pushbCheck s = none ↔ s.ERR = 0#3 ∧ s.PHASE = .absorb ∧ ¬(s.TLEN = 63#6 ∧ s.NBLK = maxBlocks) := by
  unfold pushbCheck
  cases hp : s.PHASE <;> by_cases he : s.ERR = 0#3 <;> by_cases ho : s.TLEN = 63#6 ∧ s.NBLK = maxBlocks <;> simp [he, ho]

/-- A check that finds an error already recorded gives the cause without a code (R109). -/
theorem check_of_err {s : State} (h : s.ERR ≠ 0#3) : pushbCheck s = some .sticky ∧ finalCheck s = some .sticky := by
  simp [pushbCheck, finalCheck, h]

/-- What a `PUSHB` that is not refused does, by the fill pointer (R86). -/
theorem pushbEffect_cases (x : Byte) (s : State) :
    (s.TLEN = 63#6 ∧ pushbEffect x s = completeBlock { s with TB := memWrite s.TB (fillPointer s) x }) ∨
    (s.TLEN ≠ 63#6 ∧ pushbEffect x s = { s with TB := memWrite s.TB (fillPointer s) x, TLEN := s.TLEN + 1#6 }) := by
  by_cases h : s.TLEN = 63#6
  · exact .inl ⟨h, by simp [pushbEffect, h]⟩
  · exact .inr ⟨h, by simp [pushbEffect, h]⟩

/-- Every decoded command answers a next state; none faults and none is left without a meaning. -/
theorem exec_next (i : Instr) (s : State) : ∃ t, exec i s = .next t := by
  cases i <;> exact ⟨_, rfl⟩

/-- Everything a step can do. -/
theorem step_cases {s t : State} (h : step s = .next t) :
    (s.rst = true ∧ t = resetEvent s) ∨
    (s.rst = false ∧ s.offer = none ∧ t = s) ∨
    (∃ w r, s.rst = false ∧ s.offer = some w ∧ decode w = .error r ∧ t = raise .illegal s.takeOffer) ∨
    (∃ w i, s.rst = false ∧ s.offer = some w ∧ decode w = .ok i ∧ exec i s.takeOffer = .next t) := by
  cases hr : s.rst with
  | true => exact .inl ⟨rfl, by simpa [step, hr] using h.symm⟩
  | false =>
    refine .inr ?_
    cases ho : s.offer with
    | none => exact .inl ⟨rfl, rfl, by simpa [step, serve, hr, ho] using h.symm⟩
    | some w =>
      refine .inr ?_
      cases hd : decode w with
      | error r => exact .inl ⟨w, r, rfl, rfl, hd, by simpa [step, serve, execWord, hr, ho, hd] using h.symm⟩
      | ok i => exact .inr ⟨w, i, rfl, rfl, hd, by simpa [step, serve, execWord, hr, ho, hd] using h⟩

/-- On every word and in every state the device answers a next state. -/
theorem execWord_next (w : Cmd) (s : State) : ∃ t, execWord w s = .next t := by
  cases hd : decode w with
  | error r => exact ⟨raise .illegal s, by simp [execWord, hd]⟩
  | ok i => simpa [execWord, hd] using exec_next i s

/-- Issuing a word runs it once, on the state as it is or, with `rst` asserted, on the state after the pulse (log 2). -/
theorem issue_eq (w : Cmd) (s : State) :
    issue w s = execWord w ((if s.rst then resetEvent s else s).takeOffer) := by
  cases hr : s.rst with
  | true => simp [issue, step, serve, State.offerCmd, State.takeOffer, resetEvent, State.reset, hr]
  | false =>
    obtain ⟨t, ht⟩ := execWord_next w s.takeOffer
    have hs : step (s.offerCmd w) = .next t := by
      simpa [step, serve, State.offerCmd, State.takeOffer, hr] using ht
    simp [issue, hs, hr, ht]

/-- A sequence runs its first word, then the others from the state that leaves. -/
theorem runCmds_cons {w : Cmd} {ws : List Cmd} {s t u : State} {rs : List Response}
    (h : issue w s = .next t) (hs : runCmds ws t = .next (u, rs)) :
    runCmds (w :: ws) s = .next (u, t.resp.toList ++ rs) := by
  simp [runCmds, h, hs]

end Sys2Proof.Machine
end

