-- ==== Sys2Proof/Laws/PerInstr.lean ====
section
/-! SUPPORT. Families of statements about every command, one lemma per constructor. -/

namespace Sys2Proof.Laws.TableRow

/-- The word of a command matches the command's own row of the opcode table: `cmd AND mask = match` (R50). -/
def Statement (i : Instr) : Prop := encode i &&& rowMask i = rowMatch i

/-- A row that fixes the opcode alone matches whatever the operand is. -/
theorem opcode_only (op x : Byte) : (op ++ x : Cmd) &&& 0xFF00#16 = (op ++ 0#8 : Cmd) := by
  have mask : ∀ j : Fin 16, (0xFF00#16).getLsbD j = decide (8 ≤ j.val) := by decide
  refine BitVec.eq_of_getLsbD_eq fun j hj => ?_
  rw [BitVec.getLsbD_and, mask ⟨j, hj⟩, BitVec.getLsbD_append, BitVec.getLsbD_append]
  by_cases h : j < 8
  · simp [h]
  · simp [h]; omega

theorem init : Statement .init := by unfold Statement; decide
theorem pushb (x : Byte) : Statement (.pushb x) := opcode_only 0x02 x
theorem final : Statement .final := by unfold Statement; decide
theorem rdh (i : Byte) : Statement (.rdh i) := opcode_only 0x04 i
theorem rdhex (k : Byte) : Statement (.rdhex k) := opcode_only 0x05 k
theorem rddb (k : Byte) : Statement (.rddb k) := opcode_only 0x06 k
theorem rdstat : Statement .rdstat := by unfold Statement; decide
theorem rdcnt (sel : Byte) : Statement (.rdcnt sel) := opcode_only 0x08 sel

end Sys2Proof.Laws.TableRow
end

