-- ==== Sys2Proof/Tests/Slice0.lean ====
section
/-! SUPPORT. The model's own tests, each against a value of `spec/95_test_vectors.md` (section named) or of the rule it
names, and one witness per statement with hypotheses: a concrete state and operands that meet them all. -/

namespace Sys2Proof.Tests

open Machine

/-! ### Helpers -/

/-- The reset state with the given counters, phase and error. -/
def st (tlen : BitVec 6) (nblk : BitVec 55) (phase : Phase) (err : BitVec 3) : State :=
  { State.reset with TLEN := tlen, NBLK := nblk, PHASE := phase, ERR := err }

/-- The next state of an outcome. -/
def after (o : Host.Outcome State Fault Refusal) : State :=
  match o with
  | .next t => t
  | .fault _ => State.reset
  | .refused _ => State.reset

/-- The digest state of "abc" (section 2.6). -/
def abcH : Vector Word 5 := #v[0xA9993E36#32, 0x4706816A#32, 0xBA3E2571#32, 0x7850C26C#32, 0x9CD0D89D#32]

/-- The padded block of "abc" (section 2.6). -/
def abcBlock : Vector Word 16 := #v[0x61626380#32, 0, 0, 0, 0, 0, 0, 0, 0, 0, 0, 0, 0, 0, 0, 0x18#32]

/-- Three bytes "abc" pushed from reset. -/
def abcPushed : State :=
  { st 3 0 .absorb 0 with TB := ((memWrite (memWrite (memWrite State.reset.TB 0 0x61) 1 0x62) 2 0x63)) }

/-! ### WellFormed: each check, refusing an ill-formed term -/

theorem test_wellformed_index_limits :
    (Instr.rdh 4).operandLegal = true ∧ (Instr.rdh 5).operandLegal = false ∧
    (Instr.rdhex 39).operandLegal = true ∧ (Instr.rdhex 40).operandLegal = false ∧
    (Instr.rddb 19).operandLegal = true ∧ (Instr.rddb 20).operandLegal = false ∧
    (Instr.rdcnt 1).operandLegal = true ∧ (Instr.rdcnt 2).operandLegal = false := by decide

theorem test_wellformed_always_legal :
    Instr.init.operandLegal = true ∧ (Instr.pushb 255).operandLegal = true ∧ Instr.final.operandLegal = true ∧
    Instr.rdstat.operandLegal = true := by decide

theorem test_wellformed_missing_operand : (SourceLine.command .PUSHB none).wellFormed = false := by decide
theorem test_wellformed_needless_operand : (SourceLine.command .FINAL (some 0)).wellFormed = false := by decide
theorem test_wellformed_operand_too_large : (SourceLine.command .RDHEX (some 256)).wellFormed = false := by decide
theorem test_wellformed_word_too_large : (SourceLine.word 0x10000).wellFormed = false := by decide

/-! ### Decode: words written out from R50 (section 2.10) -/

theorem test_decode_init : decode 0b0000000100000000#16 = .ok .init := by rfl
theorem test_decode_pushb : decode 0b0000001001100001#16 = .ok (.pushb 0x61#8) := by rfl
theorem test_decode_final : decode 0b0000001100000000#16 = .ok .final := by rfl
theorem test_decode_rdh : decode 0b0000010000000100#16 = .ok (.rdh 4#8) := by rfl
theorem test_decode_rdhex : decode 0b0000010100100111#16 = .ok (.rdhex 39#8) := by rfl
theorem test_decode_rddb : decode 0b0000011000010011#16 = .ok (.rddb 19#8) := by rfl
theorem test_decode_rdstat : decode 0b0000011100000000#16 = .ok .rdstat := by rfl
theorem test_decode_rdcnt : decode 0b0000100000000001#16 = .ok (.rdcnt 1#8) := by rfl
theorem test_decode_reserved :
    decode 0x0000#16 = .error .reservedOpcode ∧ decode 0x0101#16 = .error .argNotZero ∧
    decode 0x03FF#16 = .error .argNotZero ∧ decode 0x0701#16 = .error .argNotZero ∧
    decode 0x0900#16 = .error .reservedOpcode ∧ decode 0xFFFF#16 = .error .reservedOpcode := ⟨rfl, rfl, rfl, rfl, rfl, rfl⟩
theorem test_encode : encode (.pushb 0x61) = 0x0261#16 ∧ encode (.rdhex 39) = 0x0527#16 ∧ encode .final = 0x0300#16 := by
  decide
theorem test_decodeTableWord : decodeTableWord 16 0x0613 = some (.rddb 19) ∧ decodeTableWord 16 0x0101 = none := by decide

/-! ### Assembler and pseudo-commands (R54, R55) -/

theorem test_assemble_line : (parseLine "PUSHB 0x61 ; comment").bind assemble = some 0x0261#16 := by decide
theorem test_assemble_decimal : (parseLine "RDHEX 39").bind assemble = some 0x0527#16 := by decide
theorem test_assemble_word : (parseLine ".word 0x0301").bind assemble = some 0x0301#16 := by decide
theorem test_assemble_out_of_range : (parseLine "PUSHB 256").bind assemble = none := by decide
theorem test_pseudo_pushs : (Pseudo.pushs "abc").expand = some [.pushb 0x61, .pushb 0x62, .pushb 0x63] := by decide
theorem test_pseudo_rddigest : Pseudo.rddigest.expand = some [.rdh 0, .rdh 1, .rdh 2, .rdh 3, .rdh 4] := by decide

/-! ### Arithmetic and codec (sections 2.1, 2.2) -/

theorem test_add32 :
    add32 0xFFFFFFFF 0x00000001 = 0x00000000#32 ∧ add32 0xEFCDAB89 0x5738D5E1 = 0x4706816A#32 := by decide
theorem test_rotl :
    rotl 0x80000000 1 = 0x00000001#32 ∧ rotl 0x12345678 5 = 0x468ACF02#32 ∧ rotl 0x12345678 30 = 0x048D159E#32 := by decide
theorem test_pack32_masked : pack32 (maskByte (-128)) (maskByte 0x1FF) (maskByte 0) (maskByte 0x100) = 0x80FF0000#32 := by
  decide
theorem test_unpack32 : unpack32 0xA9993E36 = #v[0xA9#8, 0x99#8, 0x3E#8, 0x36#8] := by decide
theorem test_totalBits : totalBits (BitVec.allOnes 55) 63 = 0xFFFFFFFFFFFFFFF8#64 ∧ totalBits (2 ^ 23) 0 = 0x100000000#64 := by
  decide

/-! ### Round function, schedule, rounds, compression (sections 2.3 to 2.6) -/

theorem test_f :
    f (band 19) 0xF0F0F0F0 0xFF00FF00 0xFFFF0000 = 0xFF0FF000#32 ∧
    f (band 20) 0xF0F0F0F0 0xFF00FF00 0xFFFF0000 = 0xF00F0FF0#32 ∧
    f (band 40) 0xF0F0F0F0 0xFF00FF00 0xFFFF0000 = 0xFFF0F000#32 ∧
    f (band 79) 0xF0F0F0F0 0xFF00FF00 0xFFFF0000 = 0xF00F0FF0#32 := by decide
theorem test_K : K (band 39) = 0x6ED9EBA1#32 ∧ K (band 59) = 0x8F1BBCDC#32 ∧ K (band 60) = 0xCA62C1D6#32 := by decide
theorem test_schedule :
    scheduleWord abcBlock 16 = 0xC2C4C700#32 ∧ scheduleWord abcBlock 19 = 0x85898E01#32 ∧
    scheduleWord abcBlock 79 = 0x822E0879#32 := by decide +kernel
theorem test_round_0 :
    (runRound (beginCompression { State.reset with W := abcBlock })).a = 0x0116FC33#32 ∧
    (runRound (beginCompression { State.reset with W := abcBlock })).c = 0x7BF36AE2#32 := by decide +kernel
theorem test_rounds_to_39 :
    (rounds 40 (beginCompression { State.reset with W := abcBlock })).a = 0x32DE1CBA#32 ∧
    (rounds 40 (beginCompression { State.reset with W := abcBlock })).e = 0xF72EEC32#32 := by decide +kernel
theorem test_compress_abc : (compress { State.reset with W := abcBlock }).H = abcH := by decide +kernel
theorem test_compress_leaves_w64 : (compress { State.reset with W := abcBlock }).W[0] = 0x7CD45C9D#32 := by decide +kernel
theorem test_compressFn_zero :
    compressFn (Vector.replicate 5 0) zeroBlock =
      #v[0x9E1547ED#32, 0x57EC91C2#32, 0x30FA8BC8#32, 0xC7785A54#32, 0xA7EFA5E3#32] := by decide +kernel

/-! ### The commands, one step each -/

/-- Section 3, P6: INIT after a finished computation. -/
theorem test_init :
    (after (exec .init { st 3 5 .done 3 with H := abcH })).H[0] = 0x67452301#32 ∧
    status (after (exec .init { st 3 5 .done 3 with H := abcH })) = 0#32 := by decide
/-- R86, worked example. -/
theorem test_pushb_first_byte :
    (after (step (State.reset.withFetchWord 16 0x0261))).TB[0] = 0x61#8 ∧
    status (after (step (State.reset.withFetchWord 16 0x0261))) = 0x100#32 := by decide
/-- Section 2.9: the 64th byte `0x61`. -/
theorem test_pushb_completes_block :
    (after (exec (.pushb 0x61) { st 63 0 .absorb 0 with TB := Vector.replicate 64 0x61 })).H[0] = 0xDA4968EB#32 ∧
    (after (exec (.pushb 0x61) { st 63 0 .absorb 0 with TB := Vector.replicate 64 0x61 })).NBLK = 1#55 := by decide +kernel
/-- Section 3, P1: the empty message, straight from reset. -/
theorem test_final_empty :
    (after (step (State.reset.withFetchWord 16 0x0300))).H =
      #v[0xDA39A3EE#32, 0x5E6B4B0D#32, 0x3255BFEF#32, 0x95601890#32, 0xAFD80709#32] := by decide +kernel
/-- Section 2.8: 63 bytes `0x61`, the two-pass branch. -/
theorem test_final_two_pass :
    (after (exec .final { st 63 0 .absorb 0 with TB := Vector.replicate 64 0x61 })).H[0] = 0x03F09F5B#32 := by decide +kernel
/-- Section 2.7. -/
theorem test_rdh : (after (exec (.rdh 4) { State.reset with H := abcH })).resp = some ⟨true, 0x9CD0D89D#32⟩ := by decide
theorem test_rdh_index :
    (after (exec (.rdh 5) State.reset)).resp = some ⟨false, 0#32⟩ ∧ status (after (exec (.rdh 5) State.reset)) = 4#32 := by
  decide
/-- Section 2.7. -/
theorem test_rdhex :
    (after (exec (.rdhex 8) { State.reset with H := abcH })).resp = some ⟨true, 0x34#32⟩ ∧
    (after (exec (.rdhex 39) { State.reset with H := abcH })).resp = some ⟨true, 0x64#32⟩ := by decide
/-- Section 2.7. -/
theorem test_rddb :
    (after (exec (.rddb 3) { State.reset with H := abcH })).resp = some ⟨true, 0x36#32⟩ ∧
    (after (exec (.rddb 4) { State.reset with H := abcH })).resp = some ⟨true, 0x47#32⟩ := by decide
/-- Section 2.10, STATUS composition. -/
theorem test_rdstat :
    (after (exec .rdstat (st 3 0 .done 3))).resp = some ⟨true, 0x307#32⟩ ∧
    (after (exec .rdstat (st 63 0 .absorb 4))).resp = some ⟨true, 0x3F08#32⟩ := by decide
/-- Section 2.10, the refused byte at the longest message. -/
theorem test_rdcnt :
    (after (exec (.rdcnt 0) (st 63 (BitVec.allOnes 55) .absorb 4))).resp = some ⟨true, 0xFFFFFFFF#32⟩ ∧
    (after (exec (.rdcnt 1) (st 63 (BitVec.allOnes 55) .absorb 4))).resp = some ⟨true, 0x7FFFFF#32⟩ := by decide
/-- Section 2.10: `.word 0x0000` after reset; a first error wins. -/
theorem test_reserved_word :
    status (after (step (State.reset.withFetchWord 16 0x0000))) = 2#32 ∧
    (after (step ((st 0 0 .done 3).withFetchWord 16 0x0101))).ERR = 3#3 := by decide
/-- Section 2.10: the sticky check comes before the phase check. -/
theorem test_sticky_before_phase : (after (exec .final (st 0 0 .done 2))).ERR = 2#3 := by decide
/-- R28 and R46, by the choice of log 2: `RDSTAT` issued under `rst` answers once, after the pulse. -/
theorem test_issue_under_rst :
    (after (issue 0x0700#16 { st 3 0 .done 3 with rst := true })).resp = some ⟨true, 0#32⟩ := by rfl
/-- R117 for the released `rst`; the other clause is the choice of log 13. -/
theorem test_cmdReady : State.reset.cmdReady = true ∧ State.reset.assertRst.cmdReady = false := by decide
/-- R96 on "abc" (C2: forty characters). -/
theorem test_digest_abc :
    digest [0x61#8, 0x62#8, 0x63#8] = "a9993e364706816aba3e25717850c26c9cd0d89d" := by decide +kernel

/-! ### Witnesses of the statements' hypotheses -/

theorem witness_EncodeOfDecode : decode 0x02FF#16 = .ok (.pushb 0xFF#8) := by rfl
theorem witness_DecodeFollowsTheTable :
    decode 0x0100#16 = .ok .init ∧ 0x0527#16 &&& rowMask (.rdhex 0) = rowMatch (.rdhex 0) ∧
    ∀ i : Instr, 0x0900#16 &&& rowMask i ≠ rowMatch i := by
  refine ⟨rfl, by decide, fun i => ?_⟩
  cases i <;> simp [rowMask, rowMatch]
theorem witness_ReservedWordsRefused :
    opField 0x00FF#16 = 0x00#8 ∧ 0x09 ≤ (opField 0x0900#16).toNat ∧
    (opField 0x0701#16 = 0x07#8 ∧ argField 0x0701#16 ≠ 0#8) ∧
    (1 ≤ (opField 0x0802#16).toNat ∧ (opField 0x0802#16).toNat ≤ 8 ∧ opField 0x0802#16 ≠ 0x07#8) ∧
    (opField 0x0100#16 = 0x01#8 ∧ argField 0x0100#16 = 0#8) := by decide
theorem witness_AssembledLineDecodes : 0 ≤ 255 ∧ 255 ≤ 255 ∧ 0xFFFF ≤ 0xFFFF := by decide
theorem witness_StepRunsDecodedCommand :
    (State.reset.offerCmd 0x0300#16).rst = false ∧ (State.reset.offerCmd 0x0300#16).offer = some 0x0300#16 ∧
    decode 0x0300#16 = .ok .final ∧ decode 0x0301#16 = .error .argNotZero := ⟨rfl, rfl, rfl, rfl⟩
theorem witness_FetchedWordRuns : decodeTableWord 16 0x0404 = some (.rdh 4) := by decide
theorem witness_IdleDeviceHoldsItsState : abcPushed.rst = false ∧ abcPushed.offer = none := by decide
theorem witness_ResetLeavesTheResetValues : abcPushed.assertRst.rst = true := by rfl
theorem witness_ResetLeavesTheOffer :
    (abcPushed.offerCmd 0x0300#16).assertRst.rst = true ∧ (abcPushed.offerCmd 0x0300#16).assertRst.offer = some 0x0300#16 ∧
    step (abcPushed.offerCmd 0x0300#16).assertRst = .next (resetEvent (abcPushed.offerCmd 0x0300#16).assertRst) :=
  ⟨rfl, rfl, rfl⟩
theorem witness_RotlMovesEveryBit : (0 < 1 ∧ 1 < 32) ∧ (0 < 31 ∧ 31 < 32) := by decide
theorem witness_BandsFunctionsAndConstants : (79 < 80) ∧ (31 < 32) := by decide
theorem witness_ScheduleRecurrence : 16 ≤ 16 ∧ 79 < 80 := by decide
theorem witness_CircularBufferComputesSchedule : 0 < 80 ∧ 79 < 80 := by decide
theorem witness_RoundIsSimultaneous :
    (beginCompression abcPushed).t = BitVec.ofNat 7 0 ∧ ({ abcPushed with t := 79 } : State).t = BitVec.ofNat 7 79 := by
  decide
/-- One state per clause; the last two stand on the two sides of the fill pointer's limit. -/
theorem witness_PushbResult :
    (st 0 0 .done 3).ERR ≠ 0#3 ∧
    ((st 0 0 .done 0).ERR = 0#3 ∧ (st 0 0 .done 0).PHASE = .done) ∧
    ((st 63 (BitVec.allOnes 55) .absorb 0).PHASE = .absorb ∧ (st 63 (BitVec.allOnes 55) .absorb 0).TLEN = 63#6 ∧
      (st 63 (BitVec.allOnes 55) .absorb 0).NBLK.toNat = 2 ^ 55 - 1) ∧
    ((st 62 (BitVec.allOnes 55) .absorb 0).PHASE = .absorb ∧ (st 62 (BitVec.allOnes 55) .absorb 0).TLEN ≠ 63#6) ∧
    ((st 63 0 .absorb 0).PHASE = .absorb ∧ (st 63 0 .absorb 0).TLEN = 63#6 ∧
      (st 63 0 .absorb 0).NBLK.toNat ≠ 2 ^ 55 - 1) := by decide
theorem witness_PadImageAndFooter : 63 ≤ 63 ∧ 13 < 14 := by decide
theorem witness_FinalResult :
    (st 0 0 .absorb 2).ERR ≠ 0#3 ∧ ((st 0 0 .done 0).ERR = 0#3 ∧ (st 0 0 .done 0).PHASE = .done) ∧
    ((st 55 0 .absorb 0).ERR = 0#3 ∧ (st 55 0 .absorb 0).PHASE = .absorb ∧ (st 55 0 .absorb 0).TLEN.toNat ≤ 55) ∧
    ((st 56 0 .absorb 0).PHASE = .absorb ∧ 56 ≤ (st 56 0 .absorb 0).TLEN.toNat) := by decide
theorem witness_FinalComputesFinalizeFn : abcPushed.ERR = 0#3 ∧ abcPushed.PHASE = .absorb := by decide
theorem witness_RdhResult : (4#8).toNat < 5 ∧ 5 ≤ (5#8).toNat := by decide
theorem witness_RdhexResult : (39#8).toNat < 40 ∧ 40 ≤ (40#8).toNat := by decide
theorem witness_RddbResult : (19#8).toNat < 20 ∧ 20 ≤ (20#8).toNat := by decide
theorem witness_RdcntResult : (0#8 : Byte) = 0#8 ∧ (1#8 : Byte) = 1#8 ∧ 2 ≤ (2#8).toNat := by decide
theorem witness_HexSpellsTheBytes : 19 < 20 := by decide
/-- A refusal with a code, and the sticky refusal. -/
theorem witness_RefusalChangesOnlyErr :
    execWord 0x0528#16 State.reset = .next (raise .index State.reset) ∧
    (raise .index State.reset).resp = some ⟨false, 0#32⟩ ∧ State.reset.ERR = 0#3 ∧
    execWord 0x0300#16 (st 0 0 .absorb 2) = .next (raise .sticky (st 0 0 .absorb 2)) ∧
    (raise .sticky (st 0 0 .absorb 2)).resp = some ⟨false, 0#32⟩ ∧ (st 0 0 .absorb 2).ERR ≠ 0#3 :=
  ⟨rfl, rfl, rfl, rfl, rfl, by decide⟩
/-- One word and state for each code. -/
theorem witness_CauseOfTheFirstRefusal :
    State.reset.ERR = 0#3 ∧
    (after (execWord 0x0000#16 State.reset)).ERR = 1#3 ∧ (after (execWord 0x0528#16 State.reset)).ERR = 2#3 ∧
    (after (execWord 0x0300#16 (st 0 0 .done 0))).ERR = 3#3 ∧
    (after (execWord 0x0200#16 (st 63 (BitVec.allOnes 55) .absorb 0))).ERR = 4#3 := by decide
theorem witness_ReadsChangeNothing :
    (Instr.rdhex 39).operandLegal = true ∧ Instr.rdhex 39 ≠ .init ∧ Instr.rdhex 39 ≠ .final ∧ ∀ x, Instr.rdhex 39 ≠ .pushb x := by
  refine ⟨by decide, by decide, by decide, fun x => by simp⟩
theorem witness_FirstErrorWins :
    execWord 0x0100#16 (st 0 0 .absorb 2) = .next (respond true 0#32 (startComputation (st 0 0 .absorb 2))) ∧
    execWord 0x0000#16 (st 0 0 .absorb 2) = .next (raise .illegal (st 0 0 .absorb 2)) ∧
    (st 0 0 .absorb 2).ERR ≠ 0#3 ∧ decode 0x0000#16 ≠ .ok .init := ⟨rfl, rfl, by decide, by simp [test_decode_reserved.1]⟩
theorem witness_ErrorBlocksTheComputation :
    execWord 0x0261#16 (st 0 0 .absorb 2) = .next (raise .sticky (st 0 0 .absorb 2)) ∧ (st 0 0 .absorb 2).ERR ≠ 0#3 ∧
    decode 0x0261#16 ≠ .ok .init := ⟨rfl, by decide, by rw [show decode 0x0261#16 = .ok (.pushb 0x61#8) from rfl]; simp⟩
theorem witness_DigestIsImmutable :
    execWord 0x0300#16 (st 0 0 .done 0) = .next (raise .phase (st 0 0 .done 0)) ∧ (st 0 0 .done 0).PHASE = .done ∧
    decode 0x0300#16 ≠ .ok .init := ⟨rfl, rfl, by rw [show decode 0x0300#16 = .ok .final from rfl]; simp⟩
theorem witness_WhoWritesPhase :
    (execWord 0x0100#16 (st 0 0 .done 0) = .next (after (execWord 0x0100#16 (st 0 0 .done 0))) ∧
      decode 0x0100#16 = .ok .init) ∧
    (execWord 0x0300#16 abcPushed = .next (after (execWord 0x0300#16 abcPushed)) ∧ decode 0x0300#16 = .ok .final ∧
      abcPushed.ERR = 0#3) ∧
    ((st 0 0 .absorb 2).ERR ≠ 0#3) ∧ (decode 0x0700#16 = .ok .rdstat) :=
  ⟨⟨rfl, rfl⟩, ⟨rfl, rfl, rfl⟩, by decide, rfl⟩
theorem witness_BlockCounterCounts :
    execWord 0x0261#16 (st 63 0 .absorb 0) = .next (after (execWord 0x0261#16 (st 63 0 .absorb 0))) ∧
    decode 0x0261#16 = .ok (.pushb 0x61#8) ∧ (st 63 0 .absorb 0).TLEN = 63#6 ∧
    (after (execWord 0x0261#16 (st 63 0 .absorb 0))).resp = some ⟨true, 0#32⟩ := ⟨rfl, rfl, rfl, rfl⟩
theorem witness_TailBufferFrame :
    execWord 0x0263#16 (st 63 0 .absorb 0) = .next (after (execWord 0x0263#16 (st 63 0 .absorb 0))) ∧
    decode 0x0263#16 = .ok (.pushb 0x63#8) ∧ (after (execWord 0x0263#16 (st 63 0 .absorb 0))).resp = some ⟨true, 0#32⟩ ∧
    (0 : Fin 64) ≠ fillPointer (st 63 0 .absorb 0) ∧
    (after (execWord 0x0263#16 (st 0 0 .absorb 2))).resp = some ⟨false, 0#32⟩ ∧ decode 0x0700#16 = .ok .rdstat :=
  ⟨rfl, rfl, rfl, by decide, rfl, rfl⟩
theorem witness_InternalRegistersFrame :
    exec (.pushb 0x61) State.reset = .next (after (exec (.pushb 0x61) State.reset)) ∧ Instr.pushb 0x61 ≠ .final ∧
    State.reset.TLEN ≠ 63#6 := ⟨rfl, by decide, by decide⟩
/-- A state that is not the reset state: one byte pushed. -/
theorem witness_StepKeepsInvariant :
    Inv { st 1 0 .absorb 0 with TB := memWrite State.reset.TB 0 0x61 } ∧
    step { st 1 0 .absorb 0 with TB := memWrite State.reset.TB 0 0x61 } =
      .next { st 1 0 .absorb 0 with TB := memWrite State.reset.TB 0 0x61 } := by
  refine ⟨⟨by decide, by decide, ?_, fun _ => ⟨[0x61#8], ?_⟩, ?_⟩, rfl⟩
  · intro r h; cases h
  · exact ⟨⟨by decide, by decide⟩, by rfl⟩
  · intro h; cases h
/-- Two states with different dead cells and different internal registers. -/
theorem witness_UnspecifiedRegistersNeverSeen :
    Indistinguishable abcPushed { abcPushed with TB := memWrite abcPushed.TB 3 0xFF, W := abcBlock, a := 7, t := 80 } ∧
    step abcPushed = .next abcPushed := by
  refine ⟨?_, rfl⟩
  unfold Indistinguishable
  decide
theorem witness_ResponsesIgnoreUnspecifiedRegisters :
    Indistinguishable abcPushed { abcPushed with TB := memWrite abcPushed.TB 3 0xFF, e := 1 } ∧
    runCmds [0x0700#16] abcPushed =
      .next (after (step (abcPushed.offerCmd 0x0700#16)), [⟨true, status abcPushed⟩]) := by
  refine ⟨?_, rfl⟩
  unfold Indistinguishable
  decide
theorem witness_AbsorbBlocksFolds : (List.replicate 64 0x61#8).length = 64 ∧ (List.replicate 64 0x62#8).length % 64 = 0 := by
  decide
theorem witness_PushingAbsorbsTheMessage : [0x61#8].length < 2 ^ 61 ∧ Fresh State.reset ∧ State.reset.rst = false :=
  ⟨by decide, ⟨rfl, rfl, rfl, rfl, rfl⟩, rfl⟩
theorem witness_DeviceComputesTheDigest :
    [0x61#8].length < 2 ^ 61 ∧ Fresh State.reset ∧ State.reset.rst = false ∧ 39 < 40 :=
  ⟨by decide, ⟨rfl, rfl, rfl, rfl, rfl⟩, rfl, by decide⟩
theorem witness_DigestFromAnyState : [0x61#8].length < 2 ^ 61 ∧ (st 5 9 .done 3).rst = false := by decide
/-- Two messages whose padded strings have the same length: one ends as the other's terminator begins. -/
theorem witness_PaddingIsLossless : [0x61#8] ≠ [0x61#8, 0x80#8] := by decide

end Sys2Proof.Tests
end

section
/-! The reference schedule as a recurrence (R66), and the circular buffer that computes it (R67, R68). -/

namespace Sys2Proof.Machine

@[simp] theorem scheduleArray_length (B : Vector Word 16) (n : Nat) : (scheduleArray B n).length = 16 + n := by
  induction n with
  | zero => simp [scheduleArray]
  | succ n ih => simp [scheduleArray, ih, Nat.add_assoc]

/-- Later words of the schedule do not alter the earlier ones. -/
theorem scheduleArray_add_getD (B : Vector Word 16) {n i : Nat} (h : i < 16 + n) (k : Nat) :
    (scheduleArray B (n + k)).getD i 0#32 = (scheduleArray B n).getD i 0#32 := by
  induction k with
  | zero => rfl
  | succ k ih => rw [← ih, ← Nat.add_assoc, scheduleArray, List.getD_append _ _ _ _ (by simp; omega)]

theorem scheduleArray_getD (B : Vector Word 16) {n i : Nat} (h : i < 16 + n) (hn : n ≤ 64) :
    (scheduleArray B n).getD i 0#32 = scheduleWord B i := by
  rw [scheduleWord, ← scheduleArray_add_getD B h (64 - n), Nat.add_sub_cancel' hn]

theorem scheduleWord_of_lt (B : Vector Word 16) {i : Nat} (h : i < 16) : scheduleWord B i = B[i] := by
  rw [← scheduleArray_getD B (n := 0) h (by decide)]
  simp [scheduleArray, h]

theorem scheduleWord_of_ge (B : Vector Word 16) {i : Nat} (h16 : 16 ≤ i) (h80 : i < 80) :
    scheduleWord B i =
      rotl (scheduleWord B (i - 3) ^^^ scheduleWord B (i - 8) ^^^ scheduleWord B (i - 14) ^^^
        scheduleWord B (i - 16)) 1 := by
  obtain ⟨n, rfl⟩ := Nat.exists_eq_add_of_le h16
  have earlier : ∀ k, 0 < k → (scheduleArray B n).getD (16 + n - k) 0#32 = scheduleWord B (16 + n - k) :=
    fun k hk => scheduleArray_getD B (by omega) (by omega)
  have last : (scheduleArray B (n + 1)).getD (16 + n) 0#32 = scheduleWord B (16 + n) :=
    scheduleArray_getD B (by omega) (by omega)
  rw [← earlier 3, ← earlier 8, ← earlier 14, ← earlier 16, ← last, scheduleArray,
    List.getD_append_right _ _ _ _ (by simp)]
  · simp [show 16 + n - 3 = n + 13 by omega, show 16 + n - 8 = n + 8 by omega, show 16 + n - 14 = n + 2 by omega]
  all_goals decide

/-- The sixteen slots hold the schedule words that round `i` finds: the block itself up to round 16, then the last
sixteen words (R67). -/
def SlotsHold (B : Vector Word 16) (i : Nat) (W : Vector Word 16) : Prop :=
  ∀ j, j < max i 16 → max i 16 ≤ j + 16 → slot W j = scheduleWord B j

theorem slotsHold_zero (B : Vector Word 16) : SlotsHold B 0 B := by
  intro j hj _
  have hj : j < 16 := by simpa using hj
  simp [slot, scheduleWord_of_lt B hj, Nat.mod_eq_of_lt hj]

theorem slot_set (W : Vector Word 16) (i j : Nat) (v : Word) (h : i % 16 < 16) :
    slot (W.set (i % 16) v h) j = if i % 16 = j % 16 then v else slot W j := by
  simp [slot, Vector.getElem_set]

/-- The schedule step of round `i` puts `w[i]` in its slot (R67, R68). -/
theorem slot_expandSlot {B W : Vector Word 16} {i : Nat} (hi : i < 80) (h : SlotsHold B i W) :
    slot (expandSlot W i) i = scheduleWord B i := by
  by_cases h16 : 16 ≤ i
  · have back : slot W i = scheduleWord B (i - 16) := by
      rw [← h (i - 16) (by omega) (by omega), slot, slot]
      congr 1; omega
    simp only [expandSlot, h16, if_true, slot_set]
    rw [scheduleWord_of_ge B h16 hi, back, h (i - 3) (by omega) (by omega), h (i - 8) (by omega) (by omega),
      h (i - 14) (by omega) (by omega)]
  · simpa [expandSlot, h16] using h i (by omega) (by omega)

theorem SlotsHold.expandSlot {B W : Vector Word 16} {i : Nat} (hi : i < 80) (h : SlotsHold B i W) :
    SlotsHold B (i + 1) (expandSlot W i) := by
  intro j hj hj'
  by_cases hji : j = i
  · rw [hji, slot_expandSlot hi h]
  · by_cases h16 : 16 ≤ i
    · have apart : i % 16 ≠ j % 16 := by omega
      simpa [Machine.expandSlot, h16, slot_set, apart] using h j (by omega) (by omega)
    · simpa [Machine.expandSlot, h16] using h j (by omega) (by omega)

end Sys2Proof.Machine
end

section
/-! A compression on the device's registers computes `compress_fn` (R76, R77). -/

namespace Sys2Proof.Machine

/-- The working registers of the device, as the tuple of R77. -/
def workingOf (s : State) : Working := ⟨s.a, s.b, s.c, s.d, s.e⟩

theorem workingOf_runRound (s : State) :
    workingOf (runRound s) = roundFn s.t.toNat (slot (expandSlot s.W s.t.toNat) s.t.toNat) (workingOf s) := rfl

theorem rounds_beginCompression_t (s : State) {n : Nat} (hn : n ≤ 80) :
    (rounds n (beginCompression s)).t.toNat = n := by
  simp [rounds_t]; omega

/-- The loop invariant of the rounds: slots and working registers are those of the pure functions. -/
theorem rounds_beginCompression (s : State) {n : Nat} (hn : n ≤ 80) :
    SlotsHold s.W n (rounds n (beginCompression s)).W ∧
    workingOf (rounds n (beginCompression s)) =
      roundsFn (scheduleWord s.W) n ⟨s.H[0], s.H[1], s.H[2], s.H[3], s.H[4]⟩ := by
  induction n with
  | zero => exact ⟨slotsHold_zero s.W, rfl⟩
  | succ n ih =>
    obtain ⟨slots, working⟩ := ih (by omega)
    have ht := rounds_beginCompression_t s (n := n) (by omega)
    rw [rounds_succ_last, runRound_W, workingOf_runRound, ht, working, slot_expandSlot hn slots]
    exact ⟨slots.expandSlot hn, rfl⟩

/-- The add-back, as a function of the state and the working values (R76). -/
def addWorking (h : Vector Word 5) (v : Working) : Vector Word 5 :=
  #v[add32 h[0] v.a, add32 h[1] v.b, add32 h[2] v.c, add32 h[3] v.d, add32 h[4] v.e]

theorem addBack_rounds_H (s : State) {n : Nat} (hn : n ≤ 80) :
    (addBack (rounds n (beginCompression s))).H =
      addWorking s.H (roundsFn (scheduleWord s.W) n ⟨s.H[0], s.H[1], s.H[2], s.H[3], s.H[4]⟩) := by
  obtain ⟨-, working⟩ := rounds_beginCompression s hn
  rw [← working]
  simp [addWorking, workingOf]

/-- A compression leaves `compress_fn` of the state and the block it found (R76, R77). -/
@[simp] theorem compress_H (s : State) : (compress s).H = compressFn s.H s.W := addBack_rounds_H s le_rfl

end Sys2Proof.Machine
end

section
/-! Facts about the chunks of a byte string and the live bytes of the tail buffer (R17, R31, R87). -/

namespace Sys2Proof.Machine

@[simp] theorem chunk_toList (P : Vector Byte 64) : chunk P.toList = P := by
  ext1 j hj
  simp [chunk]

theorem chunk_append {X : List Byte} (h : 64 ≤ X.length) (Y : List Byte) : chunk (X ++ Y) = chunk X := by
  ext1 j hj
  simp [chunk, List.getElem?_append_left (show j < X.length by omega)]

/-- Of a byte string whose first `64 * q` bytes are the chunks, the rest is not read. -/
theorem absorbChunks_append (q : Nat) (h : Vector Word 5) (X Y : List Byte) (hq : 64 * q ≤ X.length) :
    absorbChunks q h (X ++ Y) = absorbChunks q h X := by
  induction q generalizing h X with
  | zero => rfl
  | succ q ih =>
    rw [absorbChunks, absorbChunks, chunk_append (by omega), List.drop_append_of_le_length (by omega),
      ih _ _ (by simp; omega)]

/-- The last of `q + 1` chunks, instead of the first. -/
theorem absorbChunks_succ_last (q : Nat) (h : Vector Word 5) (X : List Byte) :
    absorbChunks (q + 1) h X = compressFn (absorbChunks q h X) (packblock (chunk (X.drop (64 * q)))) := by
  induction q generalizing h X with
  | zero => simp [absorbChunks]
  | succ q ih => rw [absorbChunks, ih, absorbChunks, List.drop_drop, Nat.mul_add, Nat.add_comm]

/-- One more chunk at the end is one more compression (R87). -/
theorem absorbBlocks_append_chunk (h : Vector Word 5) {X C : List Byte} (hX : X.length % 64 = 0) (hC : C.length = 64) :
    absorbBlocks h (X ++ C) = compressFn (absorbBlocks h X) (packblock (chunk C)) := by
  have whole : 64 * (X.length / 64) = X.length := by omega
  have count : (X ++ C).length / 64 = X.length / 64 + 1 := by simp; omega
  rw [absorbBlocks, absorbBlocks, count, absorbChunks_succ_last, absorbChunks_append _ _ _ _ whole.le, whole,
    List.drop_left]

@[simp] theorem liveTail_length (s : State) : (liveTail s).length = s.TLEN.toNat := by
  have := s.TLEN.isLt
  simp [liveTail]; omega

theorem liveTail_of_empty {s : State} (h : s.TLEN = 0#6) : liveTail s = [] := by
  simp [liveTail, h]

/-- The cells up to and with the fill pointer, once a byte has been stored there: the live bytes and that byte (R86). -/
theorem take_memWrite_fillPointer (s : State) (x : Byte) :
    (memWrite s.TB (fillPointer s) x).toList.take (s.TLEN.toNat + 1) = liveTail s ++ [x] := by
  have inside : s.TLEN.toNat < 64 := s.TLEN.isLt
  simp [memWrite, fillPointer, liveTail, List.take_add_one, Vector.toList_set, List.take_set_of_le, inside]

end Sys2Proof.Machine
end

section
/-! What `PUSHB` and `FINAL` do to each register when they are not refused (R83, R84, R86). -/

namespace Sys2Proof.Machine

theorem counter_succ_toNat {n : BitVec 55} (h : n ≠ maxBlocks) : (n + 1#55).toNat = n.toNat + 1 := by
  have : n.toNat ≠ 2 ^ 55 - 1 := fun e => h (BitVec.eq_of_toNat_eq (by simpa [maxBlocks] using e))
  have := n.isLt
  simp; omega

section
variable (x : Byte) (s : State)

/-- A field that neither a compression nor `PUSHB`'s own writes touch is left alone by `PUSHB`. -/
theorem pushbEffect_keep {α : Type} (field : State → α) (hc : ∀ u, field (completeBlock u) = field u)
    (hs : field { s with TB := memWrite s.TB (fillPointer s) x } = field s)
    (ht : field { s with TB := memWrite s.TB (fillPointer s) x, TLEN := s.TLEN + 1#6 } = field s) :
    field (pushbEffect x s) = field s := by
  obtain ⟨-, h⟩ | ⟨-, h⟩ := pushbEffect_cases x s
  · rw [h, hc, hs]
  · rw [h, ht]

@[simp] theorem pushbEffect_PHASE : (pushbEffect x s).PHASE = s.PHASE :=
  pushbEffect_keep x s State.PHASE (by simp [completeBlock]) rfl rfl
@[simp] theorem pushbEffect_ERR : (pushbEffect x s).ERR = s.ERR :=
  pushbEffect_keep x s State.ERR (by simp [completeBlock]) rfl rfl
@[simp] theorem pushbEffect_rst : (pushbEffect x s).rst = s.rst :=
  pushbEffect_keep x s State.rst (by simp [completeBlock]) rfl rfl
@[simp] theorem pushbEffect_offer : (pushbEffect x s).offer = s.offer :=
  pushbEffect_keep x s State.offer (by simp [completeBlock]) rfl rfl
@[simp] theorem pushbEffect_resp : (pushbEffect x s).resp = s.resp :=
  pushbEffect_keep x s State.resp (by simp [completeBlock]) rfl rfl
@[simp] theorem pushbEffect_draws : (pushbEffect x s).draws = s.draws :=
  pushbEffect_keep x s State.draws (by simp [completeBlock]) rfl rfl

@[simp] theorem pushbEffect_TB : (pushbEffect x s).TB = memWrite s.TB (fillPointer s) x := by
  obtain ⟨-, h⟩ | ⟨-, h⟩ := pushbEffect_cases x s
  · simp [h, completeBlock]
  · rw [h]

end

section
variable (x : Byte) {s : State}

/-- The 64th byte fills the buffer, so that its contents are the old live bytes and that byte. -/
theorem memWrite_of_full (h : s.TLEN = 63#6) : memWrite s.TB (fillPointer s) x = chunk (liveTail s ++ [x]) := by
  rw [← take_memWrite_fillPointer, List.take_of_length_le (by simp [h]), chunk_toList]

/-- The 64th byte: one compression of the live bytes and that byte, one block more, no byte left (R86). -/
theorem pushbEffect_of_full (h : s.TLEN = 63#6) :
    (pushbEffect x s).H = compressFn s.H (packblock (chunk (liveTail s ++ [x]))) ∧
    (pushbEffect x s).NBLK = s.NBLK + 1#55 ∧ (pushbEffect x s).TLEN = 0#6 ∧ (pushbEffect x s).t = 80#7 := by
  simp [pushbEffect, h, completeBlock, memWrite_of_full]

/-- A byte that does not complete a block only joins the live bytes (R86). -/
theorem pushbEffect_of_room (h : s.TLEN ≠ 63#6) :
    pushbEffect x s = { s with TB := memWrite s.TB (fillPointer s) x, TLEN := s.TLEN + 1#6 } := by
  simp [pushbEffect, h]

theorem liveTail_pushbEffect_of_full (h : s.TLEN = 63#6) : liveTail (pushbEffect x s) = [] := by
  obtain ⟨-, -, hTLEN, -⟩ := pushbEffect_of_full x h
  exact liveTail_of_empty hTLEN

theorem tailLength_succ_toNat (h : s.TLEN ≠ 63#6) : (s.TLEN + 1#6).toNat = s.TLEN.toNat + 1 := by
  have : s.TLEN.toNat ≠ 63 := fun e => h (BitVec.eq_of_toNat_eq e)
  have := s.TLEN.isLt
  simp; omega

theorem liveTail_pushbEffect_of_room (h : s.TLEN ≠ 63#6) : liveTail (pushbEffect x s) = liveTail s ++ [x] := by
  rw [liveTail, pushbEffect_of_room x h, tailLength_succ_toNat h, take_memWrite_fillPointer]

end

/-- The pad image as a chunk: the live bytes, the terminator, zeros (R80). -/
theorem padImage_eq_chunk (TB : Vector Byte 64) {len : Nat} (h : len ≤ 63) :
    padImage TB len = chunk (TB.toList.take len ++ [terminator] ++ List.replicate (63 - len) 0#8) := by
  ext1 j hj
  obtain hlt | rfl | hgt := lt_trichotomy j len
  · simp [padImage, chunk, memRead, hlt, hj, List.getElem?_append_left]
  · simp [padImage, chunk, List.getElem?_append, hj.le]
  · obtain ⟨k, rfl⟩ := Nat.exists_eq_add_of_lt hgt
    have past : len + k + 1 - min len 64 = k + 1 := by omega
    have room : k < 63 - len := by omega
    simp [padImage, chunk, List.getElem?_append, past, hgt.ne', hgt.not_gt, room]

/-- What a `FINAL` that is not refused does: one compression of the pad image with the footer, or two (R81, R83). -/
theorem finalEffect_cases (s : State) :
    (s.TLEN.toNat + 1 ≤ 56 ∧ finalEffect s =
      { compress { s with
          W := writeFooter (totalBits s.NBLK s.TLEN) (packblock (padImage s.TB s.TLEN.toNat)) } with
        PHASE := .done }) ∨
    (56 < s.TLEN.toNat + 1 ∧ finalEffect s =
      { compress { compress { s with W := packblock (padImage s.TB s.TLEN.toNat) } with
          W := writeFooter (totalBits s.NBLK s.TLEN) zeroBlock } with PHASE := .done }) := by
  by_cases h : 56 < s.TLEN.toNat + 1
  · exact .inr ⟨h, by simp only [finalEffect, twoPass, decide_eq_true h, if_true, extraPass]⟩
  · exact .inl ⟨by omega, by simp only [finalEffect, twoPass, decide_eq_false h, Bool.false_eq_true, if_false]⟩

/-- A field that neither a compression nor `FINAL`'s own writes touch is left alone by `FINAL`. -/
theorem finalEffect_keep {α : Type} (field : State → α) (hc : ∀ u, field (compress u) = field u)
    (hW : ∀ u V, field { u with W := V } = field u) (hP : ∀ u p, field { u with PHASE := p } = field u)
    (s : State) : field (finalEffect s) = field s := by
  obtain ⟨-, h⟩ | ⟨-, h⟩ := finalEffect_cases s
  · rw [h, hP, hc, hW]
  · rw [h, hP, hc, hW, hc, hW]

section
variable (s : State)

@[simp] theorem finalEffect_TB : (finalEffect s).TB = s.TB :=
  finalEffect_keep State.TB compress_TB (fun _ _ => rfl) (fun _ _ => rfl) s
@[simp] theorem finalEffect_TLEN : (finalEffect s).TLEN = s.TLEN :=
  finalEffect_keep State.TLEN compress_TLEN (fun _ _ => rfl) (fun _ _ => rfl) s
@[simp] theorem finalEffect_NBLK : (finalEffect s).NBLK = s.NBLK :=
  finalEffect_keep State.NBLK compress_NBLK (fun _ _ => rfl) (fun _ _ => rfl) s
@[simp] theorem finalEffect_ERR : (finalEffect s).ERR = s.ERR :=
  finalEffect_keep State.ERR compress_ERR (fun _ _ => rfl) (fun _ _ => rfl) s
@[simp] theorem finalEffect_rst : (finalEffect s).rst = s.rst :=
  finalEffect_keep State.rst compress_rst (fun _ _ => rfl) (fun _ _ => rfl) s
@[simp] theorem finalEffect_offer : (finalEffect s).offer = s.offer :=
  finalEffect_keep State.offer compress_offer (fun _ _ => rfl) (fun _ _ => rfl) s
@[simp] theorem finalEffect_resp : (finalEffect s).resp = s.resp :=
  finalEffect_keep State.resp compress_resp (fun _ _ => rfl) (fun _ _ => rfl) s
@[simp] theorem finalEffect_draws : (finalEffect s).draws = s.draws :=
  finalEffect_keep State.draws compress_draws (fun _ _ => rfl) (fun _ _ => rfl) s
@[simp] theorem finalEffect_PHASE : (finalEffect s).PHASE = .done := rfl
@[simp] theorem finalEffect_t : (finalEffect s).t = 80#7 := by
  obtain ⟨-, h⟩ | ⟨-, h⟩ := finalEffect_cases s <;> simp [h]

theorem liveTail_finalEffect : liveTail (finalEffect s) = liveTail s := by simp [liveTail]

/-- `FINAL` leaves `finalize_fn` of the state, the live bytes and the block count (R84). -/
@[simp] theorem finalEffect_H : (finalEffect s).H = finalizeFn s.H (liveTail s) s.NBLK.toNat := by
  have pad : padImage s.TB s.TLEN.toNat =
      chunk (liveTail s ++ [terminator] ++ List.replicate (63 - (liveTail s).length) 0#8) := by
    rw [padImage_eq_chunk _ (by omega), liveTail_length, liveTail]
  have bits : totalBits s.NBLK s.TLEN = BitVec.ofNat 64 (s.NBLK.toNat * 512 + (liveTail s).length * 8) := by
    rw [totalBits, liveTail_length]
  obtain ⟨hlen, h⟩ | ⟨hlen, h⟩ := finalEffect_cases s
  · rw [h, pad, bits, finalizeFn, if_neg (by simp; omega)]
    simp
  · rw [h, pad, bits, finalizeFn, if_pos (by simp; omega)]
    simp

end

end Sys2Proof.Machine
end

section
/-! Everything a taken command word can do, said once (R47, R103, R110). -/

namespace Sys2Proof.Machine

/-- The cause for which a word is refused, if it is (R110): the word first, then the operand or the command's own
checks. -/
def refusalOf (d : Except DecodeReject Instr) (s : State) : Option Cause :=
  match d with
  | .error _ => some .illegal
  | .ok .init => none
  | .ok (.pushb _) => pushbCheck s
  | .ok .final => finalCheck s
  | .ok i => if i.operandLegal then none else some .index

/-- What the word decoded as `d` makes of `s`: a refusal, or the effect of its command; a read changes the response
only. -/
inductive Effect (s : State) : Except DecodeReject Instr → State → Prop
  | refused {d : Except DecodeReject Instr} {c : Cause} (h : refusalOf d s = some c) : Effect s d (raise c s)
  | init : Effect s (.ok .init) (respond true 0#32 (startComputation s))
  | pushb {x : Byte} (h : pushbCheck s = none) : Effect s (.ok (.pushb x)) (respond true 0#32 (pushbEffect x s))
  | final (h : finalCheck s = none) : Effect s (.ok .final) (respond true 0#32 (finalEffect s))
  | read {i : Instr} (data : Word) (hinit : i ≠ .init) (hfinal : i ≠ .final) (hpushb : ∀ x, i ≠ .pushb x) :
      Effect s (.ok i) (respond true data s)

/-- An indexed read is an effect of its command, with the index limit as its refusal. -/
theorem effect_indexed {i : Instr} {n : Nat} {k : Byte} {s : State} (read : Fin n → Word)
    (hinit : i ≠ .init) (hfinal : i ≠ .final) (hpushb : ∀ x, i ≠ .pushb x)
    (hindex : n ≤ k.toNat → refusalOf (.ok i) s = some .index) : Effect s (.ok i) (indexed n k s read) := by
  obtain ⟨_, h⟩ | ⟨hk, h⟩ := indexed_cases n k s read
  · exact h ▸ .read _ hinit hfinal hpushb
  · exact h ▸ .refused (hindex hk)

/-- A message command is an effect, with its check as its refusal. -/
theorem effect_messageCommand {i : Instr} {check : Option Cause} {effect : State → State} {s : State}
    (hrefusal : refusalOf (.ok i) s = check)
    (hnone : check = none → Effect s (.ok i) (respond true 0#32 (effect s))) :
    Effect s (.ok i) (messageCommand check effect s) := by
  obtain ⟨c, hc, h⟩ | ⟨hc, h⟩ := messageCommand_cases check effect s
  · exact h ▸ .refused (hrefusal.trans hc)
  · exact h ▸ hnone hc

theorem exec_effect (i : Instr) (s : State) : ∃ t, exec i s = .next t ∧ Effect s (.ok i) t := by
  cases i with
  | init => exact ⟨_, rfl, .init⟩
  | pushb x => exact ⟨_, rfl, effect_messageCommand rfl .pushb⟩
  | final => exact ⟨_, rfl, effect_messageCommand rfl .final⟩
  | rdstat => exact ⟨_, rfl, .read _ nofun nofun nofun⟩
  | rdh k | rdhex k | rddb k | rdcnt k =>
    refine ⟨_, rfl, effect_indexed _ nofun nofun nofun fun _ => ?_⟩
    simp [refusalOf, Instr.operandLegal]
    omega

theorem effect_of_exec {i : Instr} {s t : State} (h : exec i s = .next t) : Effect s (.ok i) t := by
  obtain ⟨u, hu, effect⟩ := exec_effect i s
  rw [h] at hu
  exact Host.Outcome.next.inj hu ▸ effect

theorem effect_of_execWord {w : Cmd} {s t : State} (h : execWord w s = .next t) : Effect s (decode w) t := by
  unfold execWord at h
  cases hd : decode w with
  | error r =>
    rw [hd] at h
    exact Host.Outcome.next.inj h ▸ .refused rfl
  | ok i =>
    rw [hd] at h
    exact effect_of_exec h

end Sys2Proof.Machine
end

section
/-! The invariant (R25): the messages the registers stand for, and what each effect makes of them. -/

namespace Sys2Proof

open Machine

theorem absorbed_nil_of_fresh {s : State} (h : Fresh s) : Absorbed [] s := by
  obtain ⟨hH, hNBLK, hTLEN, -, -⟩ := h
  simp [Absorbed, Counts, hH, hNBLK, hTLEN, liveTail_of_empty hTLEN, absorbBlocks, absorbChunks]

/-- After the counted blocks a message goes on with the live bytes. -/
theorem Counts.eq_append {M : List Byte} {s : State} (h : Counts M s) :
    M = M.take (64 * s.NBLK.toNat) ++ liveTail s := by
  rw [h.2, List.take_append_drop]

/-- The 64th byte completes a block of the message (R86, R87). -/
theorem Absorbed.pushb_of_full {M : List Byte} {s : State} (h : Absorbed M s) (x : Byte) (hfull : s.TLEN = 63#6)
    (hroom : s.NBLK ≠ maxBlocks) : Absorbed (M ++ [x]) (pushbEffect x s) := by
  obtain ⟨counts, hH⟩ := h
  obtain ⟨hlen, -⟩ := id counts
  obtain ⟨eH, eNBLK, eTLEN, -⟩ := pushbEffect_of_full x hfull
  have blocks : (pushbEffect x s).NBLK.toNat = s.NBLK.toNat + 1 := by rw [eNBLK, counter_succ_toNat hroom]
  have whole : (M ++ [x]).length = 64 * (s.NBLK.toNat + 1) := by simp [hlen, hfull]; omega
  refine ⟨⟨?_, ?_⟩, ?_⟩
  · rw [whole, blocks, eTLEN]; rfl
  · rw [liveTail_pushbEffect_of_full x hfull, blocks, ← whole, List.drop_length]
  · rw [eH, hH, blocks, ← whole, List.take_length]
    conv_rhs => rw [counts.eq_append, List.append_assoc]
    rw [absorbBlocks_append_chunk]
    · simp [hlen]
    · simp [hfull]

/-- A byte that does not complete a block joins the tail of the message (R86). -/
theorem Absorbed.pushb_of_room {M : List Byte} {s : State} (h : Absorbed M s) (x : Byte) (hroom : s.TLEN ≠ 63#6) :
    Absorbed (M ++ [x]) (pushbEffect x s) := by
  obtain ⟨⟨hlen, htail⟩, hH⟩ := h
  have inside : 64 * s.NBLK.toNat ≤ M.length := by omega
  refine ⟨⟨?_, ?_⟩, ?_⟩
  · simp [pushbEffect_of_room x hroom, tailLength_succ_toNat hroom, hlen]
    omega
  · rw [liveTail_pushbEffect_of_room x hroom, htail, pushbEffect_of_room x hroom, List.drop_append_of_le_length inside]
  · rw [pushbEffect_of_room x hroom, List.take_append_of_le_length inside]
    exact hH

theorem Absorbed.pushb {M : List Byte} {s : State} (h : Absorbed M s) {x : Byte} (hc : pushbCheck s = none) :
    Absorbed (M ++ [x]) (pushbEffect x s) := by
  obtain ⟨-, -, hroom⟩ := (pushbCheck_none_iff s).mp hc
  by_cases hfull : s.TLEN = 63#6
  · exact h.pushb_of_full x hfull fun e => hroom ⟨hfull, e⟩
  · exact h.pushb_of_room x hfull

/-- `FINAL` turns the chaining value of a message into its digest, and leaves the counters (R83, R96). -/
theorem Absorbed.final {M : List Byte} {s : State} (h : Absorbed M s) : Finished M (finalEffect s) := by
  obtain ⟨⟨hlen, htail⟩, hH⟩ := h
  have blocks : s.NBLK.toNat = M.length / 64 := by have := s.TLEN.isLt; omega
  refine ⟨⟨?_, ?_⟩, ?_⟩
  · simpa using hlen
  · simpa [liveTail_finalEffect] using htail
  · rw [finalEffect_H, hH, htail, blocks, sha1Words]

theorem recordError_le {err : BitVec 3} (h : err.toNat ≤ 4) (c : Cause) : (recordError err c).toNat ≤ 4 := by
  by_cases he : err = 0#3
  · cases c <;> simp [he, recordError_zero, Cause.code, E_ILLEGAL, E_INDEX, E_PHASE, E_OVERFLOW]
  · rwa [recordError_of_ne_zero he]

theorem inv_of_fresh {s : State} (h : Fresh s) (ht : s.t.toNat ≤ 80) (hr : RespWellFormed s) : Inv s := by
  obtain ⟨-, -, -, hPHASE, hERR⟩ := id h
  exact ⟨by simp [hERR], ht, hr, fun _ => ⟨[], absorbed_nil_of_fresh h⟩, fun hd => by simp [hPHASE] at hd⟩

theorem fresh_resetEvent (s : State) : Fresh (resetEvent s) := ⟨rfl, rfl, rfl, rfl, rfl⟩

theorem fresh_startComputation (s : State) : Fresh (startComputation s) := ⟨rfl, rfl, rfl, rfl, rfl⟩

theorem resetEvent_t_le (s : State) : (resetEvent s).t.toNat ≤ 80 := by
  have := (Config.unspecifiedRound s.draws).isLt
  rw [resetEvent_t, BitVec.toNat_ofNat]
  exact (Nat.mod_le _ _).trans (by omega)

section
variable {s : State}

theorem inv_resetEvent (s : State) : Inv (resetEvent s) :=
  inv_of_fresh (fresh_resetEvent s) (resetEvent_t_le s) nofun

theorem Inv.takeOffer (h : Inv s) : Inv s.takeOffer := h

theorem Inv.raise (h : Inv s) (c : Cause) : Inv (raise c s) := by
  obtain ⟨herr, ht, -, habsorb, hdone⟩ := h
  exact ⟨recordError_le herr c, ht, by simp [RespWellFormed], habsorb, hdone⟩

theorem Inv.respond (h : Inv s) (data : Word) : Inv (respond true data s) := by
  obtain ⟨herr, ht, -, habsorb, hdone⟩ := h
  exact ⟨herr, ht, by simp [RespWellFormed], habsorb, hdone⟩

theorem Inv.startComputation (h : Inv s) : Inv (startComputation s) := by
  obtain ⟨-, ht, hresp, -, -⟩ := h
  exact inv_of_fresh (fresh_startComputation s) ht hresp

theorem pushbEffect_t_le (x : Byte) (ht : s.t.toNat ≤ 80) : (pushbEffect x s).t.toNat ≤ 80 := by
  by_cases hfull : s.TLEN = 63#6
  · obtain ⟨-, -, -, ht80⟩ := pushbEffect_of_full x hfull
    simp [ht80]
  · simpa [pushbEffect_of_room x hfull] using ht

theorem Inv.pushbEffect (h : Inv s) {x : Byte} (hc : pushbCheck s = none) : Inv (pushbEffect x s) := by
  obtain ⟨herr, ht, hresp, habsorb, -⟩ := h
  obtain ⟨-, hPHASE, -⟩ := (pushbCheck_none_iff s).mp hc
  obtain ⟨M, hM⟩ := habsorb hPHASE
  exact ⟨by simpa using herr, pushbEffect_t_le x ht, by simpa [RespWellFormed] using hresp,
    fun _ => ⟨_, hM.pushb hc⟩, by simp [hPHASE]⟩

theorem Inv.finalEffect (h : Inv s) (hc : finalCheck s = none) : Inv (finalEffect s) := by
  obtain ⟨herr, -, hresp, habsorb, -⟩ := h
  obtain ⟨M, hM⟩ := habsorb ((finalCheck_none_iff s).mp hc).2
  exact ⟨by simpa using herr, by simp, by simpa [RespWellFormed] using hresp, by simp, fun _ => ⟨M, hM.final⟩⟩

theorem Inv.effect (h : Inv s) {d : Except DecodeReject Instr} {t : State} (effect : Effect s d t) : Inv t := by
  cases effect with
  | refused _ => exact h.raise _
  | init => exact h.startComputation.respond _
  | pushb hc => exact (h.pushbEffect hc).respond _
  | final hc => exact (h.finalEffect hc).respond _
  | read data _ _ _ => exact h.respond data

end

/-- Settles O47: a step is a reset, waiting, or the effect of a word, and each of them keeps the invariant. -/
theorem stepKeepsInvariant : Obligations.StepKeepsInvariant := by
  unfold Obligations.StepKeepsInvariant
  intro s t hinv hstep
  obtain ⟨-, rfl⟩ | ⟨-, -, rfl⟩ | ⟨_, _, -, -, -, rfl⟩ | ⟨_, _, -, -, -, hexec⟩ := step_cases hstep
  · exact inv_resetEvent s
  · exact hinv
  · exact hinv.takeOffer.raise .illegal
  · exact hinv.takeOffer.effect (effect_of_exec hexec)

/-- Settles O46: the reset state is a fresh one. -/
theorem resetMeetsInvariant : Obligations.ResetMeetsInvariant :=
  inv_of_fresh ⟨rfl, rfl, rfl, rfl, rfl⟩ (by decide) nofun

end Sys2Proof
end

section
/-! What the host can see does not depend on the unspecified registers (R26, R120). -/

namespace Sys2Proof

open Machine

namespace Indistinguishable

variable {s s' : State}

theorem takeOffer (h : Indistinguishable s s') : Indistinguishable s.takeOffer s'.takeOffer := by
  obtain ⟨hH, hNBLK, hTLEN, hPHASE, hERR, htail, hrst, -, hresp⟩ := h
  exact ⟨hH, hNBLK, hTLEN, hPHASE, hERR, htail, hrst, rfl, hresp⟩

theorem raise (h : Indistinguishable s s') (c : Cause) : Indistinguishable (raise c s) (raise c s') := by
  obtain ⟨hH, hNBLK, hTLEN, hPHASE, hERR, htail, hrst, hoffer, -⟩ := h
  exact ⟨hH, hNBLK, hTLEN, hPHASE, by simp [hERR], htail, hrst, hoffer, rfl⟩

theorem respond (h : Indistinguishable s s') (ok : Bool) (data : Word) :
    Indistinguishable (respond ok data s) (respond ok data s') := by
  obtain ⟨hH, hNBLK, hTLEN, hPHASE, hERR, htail, hrst, hoffer, -⟩ := h
  exact ⟨hH, hNBLK, hTLEN, hPHASE, hERR, htail, hrst, hoffer, rfl⟩

theorem startComputation (h : Indistinguishable s s') :
    Indistinguishable (startComputation s) (startComputation s') := by
  obtain ⟨-, -, -, -, -, -, hrst, hoffer, hresp⟩ := h
  exact ⟨rfl, rfl, rfl, rfl, rfl, (liveTail_of_empty rfl).trans (liveTail_of_empty rfl).symm, hrst, hoffer, hresp⟩

theorem resetEvent (h : Indistinguishable s s') : Indistinguishable (resetEvent s) (resetEvent s') := by
  obtain ⟨-, -, -, -, -, -, -, hoffer, -⟩ := h
  exact ⟨rfl, rfl, rfl, rfl, rfl, (liveTail_of_empty rfl).trans (liveTail_of_empty rfl).symm, rfl, hoffer, rfl⟩

theorem pushbEffect (h : Indistinguishable s s') (x : Byte) :
    Indistinguishable (pushbEffect x s) (pushbEffect x s') := by
  obtain ⟨hH, hNBLK, hTLEN, hPHASE, hERR, htail, hrst, hoffer, hresp⟩ := h
  by_cases hfull : s.TLEN = 63#6
  · have hfull' := hTLEN ▸ hfull
    obtain ⟨eH, eNBLK, eTLEN, -⟩ := pushbEffect_of_full x hfull
    obtain ⟨eH', eNBLK', eTLEN', -⟩ := pushbEffect_of_full x hfull'
    refine ⟨by rw [eH, eH', hH, htail], by rw [eNBLK, eNBLK', hNBLK], by rw [eTLEN, eTLEN'], by simpa using hPHASE,
      by simpa using hERR, ?_, by simpa using hrst, by simpa using hoffer, by simpa using hresp⟩
    rw [liveTail_pushbEffect_of_full x hfull, liveTail_pushbEffect_of_full x hfull']
  · have hfull' : s'.TLEN ≠ 63#6 := hTLEN ▸ hfull
    refine ⟨?_, ?_, ?_, by simpa using hPHASE,
      by simpa using hERR, ?_, by simpa using hrst, by simpa using hoffer, by simpa using hresp⟩
    · simpa [pushbEffect_of_room, hfull, hfull'] using hH
    · simpa [pushbEffect_of_room, hfull, hfull'] using hNBLK
    · simpa [pushbEffect_of_room, hfull, hfull'] using hTLEN
    · rw [liveTail_pushbEffect_of_room x hfull, liveTail_pushbEffect_of_room x hfull', htail]

theorem finalEffect (h : Indistinguishable s s') : Indistinguishable (finalEffect s) (finalEffect s') := by
  obtain ⟨hH, hNBLK, hTLEN, -, hERR, htail, hrst, hoffer, hresp⟩ := h
  refine ⟨by simp [hH, hNBLK, htail], ?_, ?_, rfl, ?_, ?_, ?_, ?_, ?_⟩ <;> simpa [liveTail_finalEffect]

theorem indexed (h : Indistinguishable s s') (n : Nat) (k : Byte) (read : Fin n → Word) :
    Indistinguishable (indexed n k s read) (indexed n k s' read) := by
  unfold Machine.indexed
  split
  · exact h.respond _ _
  · exact h.raise .index

theorem messageCommand (h : Indistinguishable s s') (check : Option Cause) {effect : State → State}
    (heffect : Indistinguishable (effect s) (effect s')) :
    Indistinguishable (messageCommand check effect s) (messageCommand check effect s') := by
  cases check with
  | none => exact heffect.respond _ _
  | some c => exact h.raise c

theorem checks_eq (h : Indistinguishable s s') : pushbCheck s = pushbCheck s' ∧ finalCheck s = finalCheck s' := by
  obtain ⟨-, hNBLK, hTLEN, hPHASE, hERR, -⟩ := h
  simp [pushbCheck, finalCheck, hNBLK, hTLEN, hPHASE, hERR]

theorem status_eq (h : Indistinguishable s s') : status s = status s' := by
  obtain ⟨-, -, hTLEN, hPHASE, hERR, -⟩ := h
  simp [status, hTLEN, hPHASE, hERR]

/-- A command answers two indistinguishable states with indistinguishable states: every check, every address and every
datum it reads is among the registers that agree. -/
theorem exec (h : Indistinguishable s s') (i : Instr) :
    ∃ t t', exec i s = .next t ∧ exec i s' = .next t' ∧ Indistinguishable t t' := by
  obtain ⟨hH, hNBLK, -⟩ := id h
  obtain ⟨hpushb, hfinal⟩ := h.checks_eq
  cases i with
  | init => exact ⟨_, _, rfl, rfl, h.startComputation.respond _ _⟩
  | pushb x => exact ⟨_, _, rfl, rfl, hpushb ▸ h.messageCommand _ (h.pushbEffect x)⟩
  | final => exact ⟨_, _, rfl, rfl, hfinal ▸ h.messageCommand _ h.finalEffect⟩
  | rdh k | rdhex k | rddb k => exact ⟨_, _, rfl, rfl, hH ▸ h.indexed _ k _⟩
  | rdstat => exact ⟨_, _, rfl, rfl, h.status_eq ▸ h.respond _ _⟩
  | rdcnt k => exact ⟨_, _, rfl, rfl, hNBLK ▸ h.indexed _ k _⟩

theorem execWord (h : Indistinguishable s s') (w : Cmd) :
    ∃ t t', execWord w s = .next t ∧ execWord w s' = .next t' ∧ Indistinguishable t t' := by
  unfold Machine.execWord
  cases decode w with
  | error _ => exact ⟨_, _, rfl, rfl, h.raise .illegal⟩
  | ok i => exact h.exec i

theorem issue (h : Indistinguishable s s') (w : Cmd) :
    ∃ t t', issue w s = .next t ∧ issue w s' = .next t' ∧ Indistinguishable t t' := by
  obtain ⟨-, -, -, -, -, -, hrst, -⟩ := id h
  rw [issue_eq, issue_eq, ← hrst]
  cases s.rst with
  | false => exact h.takeOffer.execWord w
  | true => exact h.resetEvent.takeOffer.execWord w

end Indistinguishable

/-- A sequence that runs to its end ran its first word, then the others. -/
theorem runCmds_cons_inv {w : Cmd} {ws : List Cmd} {s t u : State} {rs : List Response}
    (hissue : issue w s = .next t) (h : runCmds (w :: ws) s = .next (u, rs)) :
    ∃ rs', runCmds ws t = .next (u, rs') ∧ rs = t.resp.toList ++ rs' := by
  rw [runCmds, hissue] at h
  cases hrest : runCmds ws t with
  | next r =>
    simp only [hrest, Host.Outcome.next.injEq, Prod.mk.injEq] at h
    obtain ⟨rfl, hrs⟩ := h
    exact ⟨_, rfl, hrs.symm⟩
  | fault r => simp [hrest] at h
  | refused r => simp [hrest] at h

/-- Settles O49, by induction on the sequence: each word is answered alike and leaves indistinguishable states. -/
theorem responsesIgnoreUnspecifiedRegisters : Obligations.ResponsesIgnoreUnspecifiedRegisters := by
  unfold Obligations.ResponsesIgnoreUnspecifiedRegisters
  intro ws
  induction ws with
  | nil =>
    intro s s' t rs h hrun
    obtain ⟨rfl, rfl⟩ := Prod.mk.inj (Host.Outcome.next.inj hrun)
    exact ⟨s', rfl, h⟩
  | cons w ws ih =>
    intro s s' u rs h hrun
    obtain ⟨t, t', hissue, hissue', htt'⟩ := h.issue w
    obtain ⟨rs', hrest, rfl⟩ := runCmds_cons_inv hissue hrun
    obtain ⟨u', hrest', huu'⟩ := ih t t' u rs' htt' hrest
    obtain ⟨-, -, -, -, -, -, -, -, hresp⟩ := htt'
    exact ⟨u', hresp ▸ runCmds_cons hissue' hrest', huu'⟩

end Sys2Proof
end

section
/-! Who writes which register: each from the list of effects a word can have. -/

namespace Sys2Proof

open Machine

/-- `INIT` is never refused (R99). -/
theorem ne_init_of_refusalOf {d : Except DecodeReject Instr} {s : State} {c : Cause} (h : refusalOf d s = some c) :
    d ≠ .ok .init := by
  rintro rfl
  cases h

/-- Settles O39: a refusal keeps a recorded code, and no `PUSHB` or `FINAL` executes under one. -/
theorem firstErrorWins : Obligations.FirstErrorWins := by
  unfold Obligations.FirstErrorWins
  intro w s t hw herr
  have effect := effect_of_execWord hw
  generalize decode w = d at effect ⊢
  cases effect with
  | refused hc => exact ⟨fun hd => absurd hd (ne_init_of_refusalOf hc), fun _ => recordError_of_ne_zero herr _⟩
  | init => simp
  | pushb hc => exact absurd ((pushbCheck_none_iff s).mp hc).1 herr
  | final hc => exact absurd ((finalCheck_none_iff s).mp hc).1 herr
  | read data hinit _ _ => simp [hinit]

/-- Settles O41: in `DONE` only `INIT`, refusals and reads are left. -/
theorem digestIsImmutable : Obligations.DigestIsImmutable := by
  unfold Obligations.DigestIsImmutable
  intro w s t hw hdone hinit
  have effect := effect_of_execWord hw
  generalize decode w = d at effect hinit
  cases effect with
  | refused _ => exact ⟨rfl, hdone⟩
  | init => exact absurd rfl hinit
  | pushb hc => simp [hdone, pushbCheck_none_iff] at hc
  | final hc => simp [hdone, finalCheck_none_iff] at hc
  | read _ _ _ _ => exact ⟨rfl, hdone⟩

/-- Settles O42: a `FINAL` refused without a recorded error is refused for the phase, which is `DONE` already. -/
theorem whoWritesPhase : Obligations.WhoWritesPhase := by
  unfold Obligations.WhoWritesPhase
  intro w s t hw
  have effect := effect_of_execWord hw
  generalize decode w = d at effect ⊢
  cases effect with
  | refused hc =>
    refine ⟨fun hd => absurd hd (ne_init_of_refusalOf hc), ?_, fun _ _ => rfl, fun _ _ => rfl⟩
    rintro rfl herr
    cases hp : s.PHASE with
    | done => exact hp
    | absorb =>
      have executes := (finalCheck_none_iff s).mpr ⟨herr, hp⟩
      cases executes.symm.trans hc
  | init => simp
  | pushb _ => simp
  | final hc => simp [((finalCheck_none_iff s).mp hc).1]
  | read _ hinit hfinal _ => simp [hinit, hfinal]

/-- Settles O43: a `PUSHB` that completes a block is not executed at the counter's largest value. -/
theorem blockCounterCounts : Obligations.BlockCounterCounts := by
  unfold Obligations.BlockCounterCounts
  intro w s t hw
  have effect := effect_of_execWord hw
  generalize decode w = d at effect ⊢
  cases effect with
  | refused hc => exact ⟨fun hd => absurd hd (ne_init_of_refusalOf hc), by simp, fun _ _ => rfl⟩
  | init => simp
  | @pushb x hc =>
    obtain ⟨-, -, hroom⟩ := (pushbCheck_none_iff s).mp hc
    refine ⟨nofun, fun _ _ hfull _ => ?_, fun _ hcase => ?_⟩
    · obtain ⟨-, hNBLK, -⟩ := pushbEffect_of_full x hfull
      rw [respond_NBLK, hNBLK, counter_succ_toNat fun e => hroom ⟨hfull, e⟩]
    · have hfull : s.TLEN ≠ 63#6 := by simpa using hcase
      rw [respond_NBLK, pushbEffect_of_room x hfull]
  | final _ => simp
  | read _ hinit _ hpushb => simp [hinit, hpushb]

/-- Settles O44: only an executed `PUSHB` writes the buffer, and it writes one cell (R31). -/
theorem tailBufferFrame : Obligations.TailBufferFrame := by
  unfold Obligations.TailBufferFrame
  intro w s t addr hw
  have effect := effect_of_execWord hw
  generalize decode w = d at effect ⊢
  cases effect with
  | refused _ => simp
  | init => simp
  | @pushb x _ =>
    refine ⟨fun y hy => ?_, fun h => absurd rfl (h x)⟩
    obtain rfl : x = y := by simpa using hy
    exact ⟨by simp, by simp, fun h => by simp [memRead_memWrite_other _ _ h]⟩
  | final _ => simp
  | read _ _ _ hpushb => simp [hpushb]

/-- Settles O45: the effects left by the two hypotheses are refusals, reads, `INIT` and a byte that does not complete a
block. -/
theorem internalRegistersFrame : Obligations.InternalRegistersFrame := by
  unfold Obligations.InternalRegistersFrame
  intro i s t hexec hfinal hpushb
  have effect := effect_of_exec hexec
  cases effect with
  | refused _ => simp
  | init => simp
  | @pushb x _ =>
    have hfull : s.TLEN ≠ 63#6 := by simpa using hpushb
    simp [pushbEffect_of_room x hfull]
  | final _ => simp at hfinal
  | read _ _ _ _ => simp

end Sys2Proof
end

section
/-! `STATUS` (R22), and the reset values (R28). -/

namespace Sys2Proof

open Machine

theorem toNat_append_eq_add {m n : Nat} (x : BitVec m) (y : BitVec n) : (x ++ y).toNat = x.toNat * 2 ^ n + y.toNat := by
  rw [BitVec.toNat_append, ← Nat.shiftLeft_add_eq_or_of_lt y.isLt, Nat.shiftLeft_eq]

/-- `STATUS` as a number: `TLEN` from bit 8 on, `ERR` from bit 1 on, `PHASE` in bit 0 (R22). -/
theorem status_toNat (s : State) :
    (status s).toNat = s.TLEN.toNat * 256 + s.ERR.toNat * 2 + s.PHASE.bit.toNat := by
  have := s.TLEN.isLt; have := s.ERR.isLt; have := s.PHASE.bit.isLt
  simp only [status, BitVec.toNat_setWidth, toNat_append_eq_add, BitVec.toNat_ofNat]
  omega

/-- Settles O31: each field is cut out of the number by division and remainder. -/
theorem rdstatResult : Obligations.RdstatResult := by
  unfold Obligations.RdstatResult
  intro s
  have hTLEN := s.TLEN.isLt
  have hERR := s.ERR.isLt
  have hPHASE := s.PHASE.bit.isLt
  refine ⟨status s, rfl, ?_, ?_, ?_, ?_, ?_⟩
  · rw [status, BitVec.getLsbD_setWidth, BitVec.getLsbD_append]
    cases s.PHASE <;> rfl
  all_goals
    apply BitVec.eq_of_toNat_eq
    rw [BitVec.extractLsb'_toNat, status_toNat, Nat.shiftRight_eq_div_pow]
  · omega
  · rw [BitVec.toNat_ofNat]; omega
  · omega
  · rw [BitVec.toNat_ofNat]; omega

/-- Settles O12: `State.reset` writes the values of R28 out. -/
theorem resetStateValues : Obligations.ResetStateValues := by
  unfold Obligations.ResetStateValues
  decide

end Sys2Proof
end

section
/-! The bytes of a packed word, and of a packed block (R33, R62 to R65). -/

namespace Sys2Proof.Machine

/-- Byte `m` of a word, as the bits it is cut from (R63). -/
theorem unpack32_getElem (w : Word) {m : Nat} (h : m < 4) : (unpack32 w)[m] = w.extractLsb' (24 - 8 * m) 8 := by
  simp [unpack32]

/-- Bit by bit: in the eight bits of byte `m` the other three shifted bytes are zero (R64). -/
theorem unpack32_pack32 (b0 b1 b2 b3 : Byte) : unpack32 (pack32 b0 b1 b2 b3) = #v[b0, b1, b2, b3] := by
  ext m hm j hj
  interval_cases m <;> simp (disch := omega) [unpack32_getElem, pack32, hj] <;> omega

/-- Byte `m` of word `i` of a packed block is byte `4 * i + m` of the chunk (R65). -/
theorem unpack32_packblock_getElem (P : Vector Byte 64) {i m : Nat} (hi : i < 16) (hm : m < 4) :
    (unpack32 (packblock P)[i])[m] = P[4 * i + m] := by
  simp only [packblock_getElem P i hi, memRead4, unpack32_pack32]
  interval_cases m <;> rfl

end Sys2Proof.Machine
end

section
/-! The bytes of a chunk in its block (R33), and the reads (R40). -/

namespace Sys2Proof

open Machine

/-- Settles O15: byte `j mod 4` of word `j div 4` is byte `4 * (j div 4) + j mod 4` of the chunk. -/
theorem byteLandsInItsWord : Obligations.ByteLandsInItsWord := by
  unfold Obligations.ByteLandsInItsWord
  intro P j
  rw [← unpack32_getElem _ (Nat.mod_lt _ (by decide)), unpack32_packblock_getElem]
  simp [Nat.div_add_mod]

/-- A command other than `PUSHB` and `FINAL` is refused for its operand alone (R40, R110). -/
theorem refusalOf_of_operandLegal {i : Instr} (s : State) (hlegal : i.operandLegal = true) (hfinal : i ≠ .final)
    (hpushb : ∀ x, i ≠ .pushb x) : refusalOf (.ok i) s = none := by
  cases i with
  | init | rdstat => rfl
  | pushb x => exact absurd rfl (hpushb x)
  | final => exact absurd rfl hfinal
  | rdh _ | rdhex _ | rddb _ | rdcnt _ => exact if_pos hlegal

/-- Settles O38: of the effects a command can have, a refusal needs an operand out of range, and the other three are
of commands that are no reads. -/
theorem readsChangeNothing : Obligations.ReadsChangeNothing := by
  unfold Obligations.ReadsChangeNothing
  intro i s hlegal hinit hfinal hpushb
  obtain ⟨t, hexec, effect⟩ := exec_effect i s
  cases effect with
  | refused hc => simp [refusalOf_of_operandLegal s hlegal hfinal hpushb] at hc
  | init => exact absurd rfl hinit
  | @pushb x _ => exact absurd rfl (hpushb x)
  | final _ => exact absurd rfl hfinal
  | read data _ _ _ => exact ⟨data, hexec⟩

end Sys2Proof
end

section
/-! The fields of a command word, and the decoder as the inverse of the encoder (R48, R50, R54). -/

namespace Sys2Proof

@[simp] theorem opField_append (op x : Byte) : opField (op ++ x) = op := BitVec.extractLsb'_append_eq_left

@[simp] theorem argField_append (op x : Byte) : argField (op ++ x) = x := BitVec.extractLsb'_append_eq_right

/-- A word is its two fields (R48). -/
theorem opField_append_argField (w : Cmd) : opField w ++ argField w = w :=
  (BitVec.extractLsb'_append_extractLsb'_eq_extractLsb' rfl).trans (BitVec.extractLsb'_eq_self)

@[simp] theorem opField_encode (i : Instr) : opField (encode i) = opcode i := opField_append _ _

@[simp] theorem argField_encode (i : Instr) : argField (encode i) = operand i := argField_append _ _

/-- Each command, with every operand, is read back from its word (R50, R54). -/
theorem decode_encode (i : Instr) : decode (encode i) = .ok i := by
  cases i <;> simp [decode, opcode, operand, decodeBare]

theorem decodeBare_ok {arg : Byte} {i j : Instr} (h : decodeBare arg i = .ok j) : arg = 0#8 ∧ i = j := by
  by_cases harg : arg = 0#8
  · exact ⟨harg, by simpa [decodeBare, harg] using h⟩
  · simp [decodeBare, harg] at h

/-- A word that spells a command has the command's opcode and operand as its fields (R48, R50). -/
theorem fields_of_decode {w : Cmd} {i : Instr} (h : decode w = .ok i) :
    opField w = opcode i ∧ argField w = operand i := by
  unfold decode at h
  split_ifs at h with hinit hpushb hfinal hrdh hrdhex hrddb hrdstat hrdcnt
  · obtain ⟨harg, rfl⟩ := decodeBare_ok h
    exact ⟨hinit, harg⟩
  · obtain rfl := Except.ok.inj h
    exact ⟨hpushb, rfl⟩
  · obtain ⟨harg, rfl⟩ := decodeBare_ok h
    exact ⟨hfinal, harg⟩
  · obtain rfl := Except.ok.inj h
    exact ⟨hrdh, rfl⟩
  · obtain rfl := Except.ok.inj h
    exact ⟨hrdhex, rfl⟩
  · obtain rfl := Except.ok.inj h
    exact ⟨hrddb, rfl⟩
  · obtain ⟨harg, rfl⟩ := decodeBare_ok h
    exact ⟨hrdstat, harg⟩
  · obtain rfl := Except.ok.inj h
    exact ⟨hrdcnt, rfl⟩

/-- A word that spells a command is the command's encoding: no bit of a word is dropped (R48, R50). -/
theorem encode_of_decode {w : Cmd} {i : Instr} (h : decode w = .ok i) : encode i = w := by
  obtain ⟨hop, harg⟩ := fields_of_decode h
  rw [encode, ← hop, ← harg, opField_append_argField]

end Sys2Proof
end

section
/-! The match and mask columns of the opcode table (R50). -/

namespace Sys2Proof

/-- The word of a command matches the command's own row. -/
theorem encode_matches_row (i : Instr) : encode i &&& rowMask i = rowMatch i := by
  cases i with
  | init => exact Laws.TableRow.init
  | pushb x => exact Laws.TableRow.pushb x
  | final => exact Laws.TableRow.final
  | rdh k => exact Laws.TableRow.rdh k
  | rdhex k => exact Laws.TableRow.rdhex k
  | rddb k => exact Laws.TableRow.rddb k
  | rdstat => exact Laws.TableRow.rdstat
  | rdcnt sel => exact Laws.TableRow.rdcnt sel

/-- A row that fixes the opcode alone is matched by the words with that opcode. -/
theorem eq_append_of_matches_opcode {w : Cmd} {op : Byte} (h : w &&& 0xFF00#16 = (op ++ 0#8 : Cmd)) :
    op ++ argField w = w := by
  rw [← opField_append_argField w, Laws.TableRow.opcode_only] at h
  have hop : opField w = op := by simpa using congrArg opField h
  rw [← hop, opField_append_argField]

/-- A row that fixes the whole word is matched by that word alone. -/
theorem eq_of_matches_word {w m : Cmd} (h : w &&& 0xFFFF#16 = m) : m = w := h.symm.trans BitVec.and_allOnes

/-- A word that matches a row is the encoding of a command of that row. -/
theorem encode_of_matches_row {w : Cmd} {i : Instr} (h : w &&& rowMask i = rowMatch i) :
    ∃ j, encode j = w ∧ rowMatch j = rowMatch i := by
  cases i with
  | init => exact ⟨.init, eq_of_matches_word h, rfl⟩
  | pushb _ => exact ⟨.pushb (argField w), eq_append_of_matches_opcode (op := 0x02) h, rfl⟩
  | final => exact ⟨.final, eq_of_matches_word h, rfl⟩
  | rdh _ => exact ⟨.rdh (argField w), eq_append_of_matches_opcode (op := 0x04) h, rfl⟩
  | rdhex _ => exact ⟨.rdhex (argField w), eq_append_of_matches_opcode (op := 0x05) h, rfl⟩
  | rddb _ => exact ⟨.rddb (argField w), eq_append_of_matches_opcode (op := 0x06) h, rfl⟩
  | rdstat => exact ⟨.rdstat, eq_of_matches_word h, rfl⟩
  | rdcnt _ => exact ⟨.rdcnt (argField w), eq_append_of_matches_opcode (op := 0x08) h, rfl⟩

theorem matches_row_of_decode {w : Cmd} {i : Instr} (h : decode w = .ok i) : w &&& rowMask i = rowMatch i :=
  encode_of_decode h ▸ encode_matches_row i

theorem decode_of_matches_row {w : Cmd} {i : Instr} (h : w &&& rowMask i = rowMatch i) :
    ∃ j, decode w = .ok j ∧ rowMatch j = rowMatch i := by
  obtain ⟨j, rfl, hrow⟩ := encode_of_matches_row h
  exact ⟨j, decode_encode j, hrow⟩

/-- Settles O4: a word spells a command exactly if it matches a row, and it spells one command, so it matches one
row. -/
theorem decodeFollowsTheTable : Obligations.DecodeFollowsTheTable := by
  unfold Obligations.DecodeFollowsTheTable
  refine ⟨fun _ _ => matches_row_of_decode, fun _ _ => decode_of_matches_row, fun w i j hi hj => ?_,
    fun w hnone => ?_⟩
  · obtain ⟨i', hdi, hi'⟩ := decode_of_matches_row hi
    obtain ⟨j', hdj, hj'⟩ := decode_of_matches_row hj
    obtain rfl := Except.ok.inj (hdi.symm.trans hdj)
    exact hi'.symm.trans hj'
  · cases hd : decode w with
    | error r => exact ⟨r, rfl⟩
    | ok i => exact absurd (matches_row_of_decode hd) (hnone i)

end Sys2Proof
end

section
/-! What every word answers, and the port inputs it leaves alone (R46, R47, R53). -/

namespace Sys2Proof.Machine

/-- Each effect ends with a response, without data if it is a refusal (R53). -/
theorem Effect.answers {s t : State} {d : Except DecodeReject Instr} (h : Effect s d t) :
    ∃ r, t.resp = some r ∧ (r.ok = false → r.data = 0#32) := by
  cases h with
  | refused _ => exact ⟨_, rfl, fun _ => rfl⟩
  | init | pushb _ | final _ | read _ _ _ _ => exact ⟨_, rfl, nofun⟩

/-- No command writes the port's inputs or draws a free value (R46). -/
theorem Effect.keeps_inputs {s t : State} {d : Except DecodeReject Instr} (h : Effect s d t) :
    t.rst = s.rst ∧ t.offer = s.offer ∧ t.draws = s.draws := by
  cases h with
  | refused _ | init | read _ _ _ _ => exact ⟨rfl, rfl, rfl⟩
  | pushb _ | final _ => simp

end Sys2Proof.Machine

namespace Sys2Proof

open Machine

/-- Settles O35: whatever effect a word has, it answers and keeps the inputs. -/
theorem everyWordIsAnswered : Obligations.EveryWordIsAnswered := by
  unfold Obligations.EveryWordIsAnswered
  intro w s
  obtain ⟨t, ht⟩ := execWord_next w s
  have effect := effect_of_execWord ht
  obtain ⟨r, hresp, hdata⟩ := effect.answers
  exact ⟨t, r, ht, hresp, hdata, effect.keeps_inputs⟩

end Sys2Proof
end

section
/-! Sequences of commands with `rst` released: one word, two sequences one after the other (R41, R47). -/

namespace Sys2Proof.Machine

theorem issue_encode {s : State} (hrst : s.rst = false) (i : Instr) : issue (encode i) s = exec i s.takeOffer := by
  simp [issue_eq, hrst, execWord, decode_encode]

theorem issue_next (w : Cmd) (s : State) : ∃ t, issue w s = .next t := by
  rw [issue_eq]
  exact execWord_next w _

/-- A sequence whose first word is answered `r` answers `r` and then what the others answer. -/
theorem runCmds_cons_of_resp {w : Cmd} {ws : List Cmd} {s t u : State} {r : Response} {rs : List Response}
    (h : issue w s = .next t) (hr : t.resp = some r) (hs : runCmds ws t = .next (u, rs)) :
    runCmds (w :: ws) s = .next (u, r :: rs) := by
  simpa [hr] using runCmds_cons h hs

theorem runCmds_singleton {w : Cmd} {s t : State} {r : Response} (h : issue w s = .next t) (hr : t.resp = some r) :
    runCmds [w] s = .next (t, [r]) :=
  runCmds_cons_of_resp h hr rfl

theorem runCmds_append {ws ws' : List Cmd} {s t u : State} {rs rs' : List Response}
    (h : runCmds ws s = .next (t, rs)) (h' : runCmds ws' t = .next (u, rs')) :
    runCmds (ws ++ ws') s = .next (u, rs ++ rs') := by
  induction ws generalizing s rs with
  | nil =>
    obtain ⟨rfl, rfl⟩ := Prod.mk.inj (Host.Outcome.next.inj h)
    exact h'
  | cons w ws ih =>
    obtain ⟨v, hv⟩ := issue_next w s
    obtain ⟨rs₂, hrest, rfl⟩ := runCmds_cons_inv hv h
    rw [List.append_assoc]
    exact runCmds_cons hv (ih hrest)

end Sys2Proof.Machine
end

section
/-! A whole digest computation at the port: `INIT`, the bytes, `FINAL`, the reads (R55, R96). -/

namespace Sys2Proof

open Machine

/-- The device is in the middle of a computation without an error, has absorbed exactly `M`, and takes commands. -/
def Absorbing (M : List Byte) (s : State) : Prop :=
  Absorbed M s ∧ s.PHASE = .absorb ∧ s.ERR = 0#3 ∧ s.rst = false

theorem absorbing_nil_of_fresh {s : State} (h : Fresh s) (hrst : s.rst = false) : Absorbing [] s := by
  obtain ⟨-, -, -, hPHASE, hERR⟩ := id h
  exact ⟨absorbed_nil_of_fresh h, hPHASE, hERR, hrst⟩

section
variable {M : List Byte} {s : State}

theorem Absorbed.takeOffer (h : Absorbed M s) : Absorbed M s.takeOffer := h

theorem Absorbing.takeOffer (h : Absorbing M s) : Absorbing M s.takeOffer := h

/-- Below the longest message the block counter has room for one more byte (R19, R108). -/
theorem Absorbing.pushbCheck_none (h : Absorbing M s) (hlen : M.length + 1 < 2 ^ 61) : pushbCheck s = none := by
  obtain ⟨⟨⟨count, -⟩, -⟩, hPHASE, hERR, -⟩ := h
  refine (pushbCheck_none_iff s).mpr ⟨hERR, hPHASE, fun ⟨hTLEN, hNBLK⟩ => ?_⟩
  have last : s.NBLK.toNat = 2 ^ 55 - 1 := by simp [hNBLK, maxBlocks]
  have full : s.TLEN.toNat = 63 := by simp [hTLEN]
  omega

/-- A `PUSHB` is executed and appends its byte to the message (R86). -/
theorem Absorbing.issue_pushb (h : Absorbing M s) (hlen : M.length + 1 < 2 ^ 61) (x : Byte) :
    ∃ t, issue (encode (.pushb x)) s = .next t ∧ t.resp = some okNothing ∧ Absorbing (M ++ [x]) t := by
  have hcheck := h.takeOffer.pushbCheck_none hlen
  obtain ⟨absorbed, hPHASE, hERR, hrst⟩ := h
  refine ⟨respond true 0#32 (pushbEffect x s.takeOffer), ?_, rfl, absorbed.takeOffer.pushb hcheck, ?_, ?_, ?_⟩
  · rw [issue_encode hrst, exec, execPushb, hcheck, messageCommand]
  · simpa using hPHASE
  · simpa using hERR
  · simpa using hrst

/-- Pushing bytes appends them to the message, each answered `(1, 0)` (R87). -/
theorem Absorbing.runCmds_pushCmds (h : Absorbing M s) (N : List Byte) (hlen : M.length + N.length < 2 ^ 61) :
    ∃ t, runCmds (pushCmds N) s = .next (t, List.replicate N.length okNothing) ∧ Absorbing (M ++ N) t := by
  induction N generalizing M s with
  | nil => exact ⟨s, rfl, by simpa using h⟩
  | cons x N ih =>
    rw [List.length_cons] at hlen
    obtain ⟨t, hissue, hresp, ht⟩ := h.issue_pushb (by omega) x
    obtain ⟨u, hrun, hu⟩ := ih ht (by simp; omega)
    exact ⟨u, runCmds_cons_of_resp hissue hresp hrun, by simpa using hu⟩

/-- `FINAL` is executed and leaves the digest of the message absorbed (R83, R96). -/
theorem Absorbing.issue_final (h : Absorbing M s) :
    ∃ t, issue (encode .final) s = .next t ∧ t.resp = some okNothing ∧ DigestReady t ∧ t.H = sha1Words M ∧
      t.rst = false := by
  obtain ⟨absorbed, hPHASE, hERR, hrst⟩ := h
  have hcheck := (finalCheck_none_iff s.takeOffer).mpr ⟨hERR, hPHASE⟩
  obtain ⟨-, hH⟩ := absorbed.takeOffer.final
  refine ⟨respond true 0#32 (finalEffect s.takeOffer), ?_, rfl, ⟨rfl, ?_⟩, hH, ?_⟩
  · rw [issue_encode hrst, exec, execFinal, hcheck, messageCommand]
  · simpa using hERR
  · simpa using hrst

end

/-- `INIT` is executed in every state and starts the computation of the empty message (R99). -/
theorem issue_init {s : State} (hrst : s.rst = false) :
    ∃ t, issue (encode .init) s = .next t ∧ t.resp = some okNothing ∧ Absorbing [] t :=
  ⟨_, issue_encode hrst .init, rfl, absorbing_nil_of_fresh (fresh_startComputation s.takeOffer) hrst⟩

/-- The word of `RDHEX k` (R93). -/
def hexRead (k : Fin 40) : Cmd := encode (.rdhex (BitVec.ofNat 8 k))

/-- The answer to `RDHEX k` in a state whose digest state is `h` (R93). -/
def hexAnswer (h : Vector Word 5) (k : Fin 40) : Response := ⟨true, (charCode (hex h)[k]).setWidth 32⟩

theorem exec_rdhex (k : Fin 40) (s : State) :
    exec (.rdhex (BitVec.ofNat 8 k)) s = .next { s with resp := some (hexAnswer s.H k) } := by
  have hk : (BitVec.ofNat 8 k).toNat = k := by simp; omega
  have legal : (BitVec.ofNat 8 k).toNat < 40 := by omega
  rw [exec, execRdhex, indexed_legal legal]
  simp [respond, hexAnswer, hk]

/-- Reads of characters, in any order and number, answer them and leave the digest as it is (R40, R93). -/
theorem runCmds_rdhex (ks : List (Fin 40)) {s : State} (hrst : s.rst = false) :
    ∃ t, runCmds (ks.map hexRead) s = .next (t, ks.map (hexAnswer s.H)) ∧
      t.H = s.H ∧ t.PHASE = s.PHASE ∧ t.ERR = s.ERR := by
  induction ks generalizing s with
  | nil => exact ⟨s, rfl, rfl, rfl, rfl⟩
  | cons k ks ih =>
    obtain ⟨t, hrun, frame⟩ := ih (s := { s.takeOffer with resp := some (hexAnswer s.H k) }) hrst
    exact ⟨t, runCmds_cons_of_resp ((issue_encode hrst _).trans (exec_rdhex k _)) rfl hrun, frame⟩

/-- The forty reads of `DIGEST`, over the positions of the hex string (R55). -/
theorem readAll_rdhex : (readAll 40 .rdhex).map encode = (List.finRange 40).map hexRead := by
  rw [readAll, ← List.map_coe_finRange_eq_range, List.map_map, List.map_map]
  rfl

/-- The answers to these reads are the characters of the digest in order (R91, R96). -/
theorem finRange_map_hexAnswer (M : List Byte) :
    (List.finRange 40).map (hexAnswer (sha1Words M)) =
      (digest M).toList.map fun c => ⟨true, (charCode c).setWidth 32⟩ := by
  have chars : (hex (sha1Words M)).toList = (List.finRange 40).map fun k => (hex (sha1Words M))[k] := by
    rw [hex, Vector.toList_ofFn, List.ofFn_eq_map]
    simp
  simp [digest, chars, hexAnswer]

/-- Settles O53: the parts of the sequence, each run from the state the one before it leaves. -/
theorem digestFromAnyState : Obligations.DigestFromAnyState := by
  unfold Obligations.DigestFromAnyState
  intro M s hlen hrst
  obtain ⟨s₁, hinit, hresp₁, absorbing⟩ := issue_init hrst
  obtain ⟨s₂, hpush, absorbed⟩ := absorbing.runCmds_pushCmds M (by simpa using hlen)
  rw [List.nil_append] at absorbed
  obtain ⟨s₃, hfinal, hresp₃, ⟨hPHASE, hERR⟩, hH, hrst₃⟩ := absorbed.issue_final
  obtain ⟨t, hread, hHt, hPHASEt, hERRt⟩ := runCmds_rdhex (List.finRange 40) hrst₃
  rw [← readAll_rdhex, hH, finRange_map_hexAnswer] at hread
  have run := runCmds_append (runCmds_append (runCmds_append (runCmds_singleton hinit hresp₁) hpush)
    (runCmds_singleton hfinal hresp₃)) hread
  refine ⟨t, ?_, ⟨hPHASEt.trans hPHASE, hERRt.trans hERR⟩, hHt.trans hH⟩
  rw [run, List.replicate_succ', List.replicate_succ]
  rfl

end Sys2Proof
end

section
/-! Rotation bit by bit (R58), a word from its bytes (R64), and the message length in bits (R60). -/

namespace Sys2Proof

open Machine

/-- The amount is in range, so the library's reduction of it modulo 32 changes nothing (R58, U10). -/
theorem rotl_eq_rotateLeft (x : Word) (n : Nat) (h : 0 < n ∧ n < 32) : rotl x n h = x.rotateLeft n := by
  rw [BitVec.rotateLeft_def, Nat.mod_eq_of_lt h.2, rotl]

/-- Settles O13: a bit that stays below position 32 moves up by `n`, one that would pass it comes in again from
below. -/
theorem rotlMovesEveryBit : Obligations.RotlMovesEveryBit := by
  unfold Obligations.RotlMovesEveryBit
  refine ⟨fun x n h j hj => ?_, fun x => ?_⟩
  · rw [rotl_eq_rotateLeft, BitVec.getLsbD_rotateLeft, Nat.mod_eq_of_lt h.2]
    obtain hstay | hwrap := Nat.lt_or_ge (j + n) 32
    · rw [Nat.mod_eq_of_lt hstay]
      simp [hstay]
    · have hpos : (j + n) % 32 = j + n - 32 := by omega
      have hback : 32 - n + (j + n - 32) = j := by omega
      have hlow : j + n - 32 < n := by omega
      simp [hpos, hlow, hback]
  · rw [BitVec.rotateRight_def, BitVec.or_comm, rotl]

/-- Packing is concatenation, the first byte in front (R62). -/
theorem pack32_eq_append (b0 b1 b2 b3 : Byte) : pack32 b0 b1 b2 b3 = (b0 ++ b1 ++ b2 ++ b3 : BitVec 32) := by
  rw [← BitVec.setWidth_eq (b0 ++ b1 ++ b2 ++ b3), BitVec.setWidth_append_append_append_eq_shiftLeft_setWidth_or, pack32]

/-- Neighbouring bytes of a word are cut from neighbouring bits, so their concatenation is the word (R64). -/
theorem pack32_unpack32 (w : Word) :
    pack32 (unpack32 w)[0] (unpack32 w)[1] (unpack32 w)[2] (unpack32 w)[3] = w := by
  simp only [unpack32_getElem, pack32_eq_append]
  rw [BitVec.extractLsb'_append_extractLsb'_eq_extractLsb' (by rfl),
    BitVec.extractLsb'_append_extractLsb'_eq_extractLsb' (by rfl),
    BitVec.extractLsb'_append_extractLsb'_eq_extractLsb' (by rfl)]
  exact BitVec.extractLsb'_eq_self

/-- Settles O14, by the two round trips. -/
theorem packAndUnpackInverse : Obligations.PackAndUnpackInverse := by
  unfold Obligations.PackAndUnpackInverse
  exact ⟨unpack32_pack32, pack32_unpack32⟩

/-- The count of chunks has 55 bits and the tail's length 6, so the sum stays below `2 ^ 64` (R60). -/
theorem totalBits_toNat (n : BitVec 55) (l : BitVec 6) : (totalBits n l).toNat = n.toNat * 512 + l.toNat * 8 := by
  have := n.isLt
  have := l.isLt
  rw [totalBits, BitVec.toNat_ofNat]
  omega

/-- Settles O16: the exact value is a multiple of 8 below `2 ^ 64`, and is the value of the concatenation. -/
theorem messageLengthNeverWraps : Obligations.MessageLengthNeverWraps := by
  unfold Obligations.MessageLengthNeverWraps
  intro n l
  refine ⟨totalBits_toNat n l, ?_, BitVec.eq_of_toNat_eq ?_⟩
  · have hlt := (totalBits n l).isLt
    rw [totalBits_toNat] at hlt ⊢
    omega
  · rw [totalBits_toNat, toNat_append_eq_add, toNat_append_eq_add, BitVec.toNat_ofNat]
    omega

end Sys2Proof
end

section
/-! The schedule word by word (R66), the circular buffer in a compression (R68), and a round as a simultaneous
assignment (R67, R75). -/

namespace Sys2Proof

open Machine

/-- Settles O19: the loop invariant of the rounds gives the slots that round `i` finds, and its schedule step puts
`w[i]` in its slot. -/
theorem circularBufferComputesSchedule : Obligations.CircularBufferComputesSchedule := by
  unfold Obligations.CircularBufferComputesSchedule
  intro s i hi
  have ht := rounds_beginCompression_t s hi.le
  obtain ⟨slots, -⟩ := rounds_beginCompression s hi.le
  refine ⟨ht, ?_⟩
  rw [scheduleStep_W, ht, slot_expandSlot hi slots]

/-- The rotated XOR of zero words is zero, so the recurrence never leaves the all-zero schedule (R66). -/
theorem scheduleArray_zeroBlock (n : Nat) : scheduleArray zeroBlock n = List.replicate (16 + n) 0#32 := by
  have rotated : rotl (0#32 ^^^ 0#32 ^^^ 0#32 ^^^ 0#32) 1 = 0#32 := by decide
  induction n with
  | zero => simp [scheduleArray, zeroBlock]
  | succ n ih =>
    simp only [scheduleArray, ih, List.getD_eq_getElem?_getD, List.getElem?_getD_replicate_default_eq, rotated]
    rw [← Nat.add_assoc, List.replicate_succ']

theorem scheduleWord_zeroBlock (i : Nat) : scheduleWord zeroBlock i = 0#32 := by
  rw [scheduleWord, scheduleArray_zeroBlock, List.getD_eq_getElem?_getD,
    List.getElem?_getD_replicate_default_eq]

/-- Settles O18: the words of the block, the recurrence over the array that keeps every word, and the all-zero array. -/
theorem scheduleRecurrence : Obligations.ScheduleRecurrence := by
  unfold Obligations.ScheduleRecurrence
  exact ⟨fun B i => scheduleWord_of_lt B i.isLt, fun B _ => scheduleWord_of_ge B, scheduleWord_zeroBlock⟩

/-- The word in slot `i mod 16` after the schedule step of round `i`, from the slots before it (R67). -/
theorem slot_expandSlot_eq (W : Vector Word 16) (i : Nat) :
    slot (expandSlot W i) i =
      if i < 16 then slot W i
      else rotl (slot W (i - 3) ^^^ slot W (i - 8) ^^^ slot W (i - 14) ^^^ slot W i) 1 := by
  obtain h | h := Nat.lt_or_ge i 16
  · simp [expandSlot, h, h.not_ge]
  · simp [expandSlot, h, slot_set]

/-- The schedule step writes no slot but `i mod 16`, and that one only from round 16 on (R67). -/
theorem expandSlot_getElem (W : Vector Word 16) (i : Nat) (j : Fin 16) :
    (expandSlot W i)[j] = if 16 ≤ i ∧ j.val = i % 16 then slot (expandSlot W i) i else W[j] := by
  obtain h | h := Nat.lt_or_ge i 16
  · simp [expandSlot, h.not_ge]
  · simp [expandSlot, h, slot_set, Vector.getElem_set, eq_comm]

/-- The five-term sum as a number: reduced once, at the end, modulo `2 ^ 32` (R56, R75). -/
theorem roundSum_toNat (i : Nat) (a b c d e wi : Word) :
    (roundSum i a b c d e wi).toNat =
      ((rotl a 5).toNat + (f (band i) b c d).toNat + e.toNat + (K (band i)).toNat + wi.toNat) % 2 ^ 32 := by
  simp only [roundSum, add32, BitVec.toNat_add, Nat.mod_add_mod]

/-- Settles O21: the schedule step, the sum and the five assignments, each from the state before the round. -/
theorem roundIsSimultaneous : Obligations.RoundIsSimultaneous := by
  unfold Obligations.RoundIsSimultaneous
  intro s i hi hst wi
  have ht : s.t.toNat = i := by rw [hst, BitVec.toNat_ofNat]; omega
  have hW : (runRound s).W = expandSlot s.W i := by rw [runRound_W, ht]
  have word : slot (expandSlot s.W i) i = wi := slot_expandSlot_eq s.W i
  have index : s.t + 1#7 = BitVec.ofNat 7 (i + 1) := by rw [hst, BitVec.ofNat_add]
  refine ⟨fun j => ?_, ?_, ?_⟩
  · rw [hW, ← word]
    exact expandSlot_getElem s.W i j
  · rw [runRound_a, ht, word, roundSum_toNat]
  · rw [← index]
    rfl

end Sys2Proof
end

section
/-! A whole compression and the band functions of its rounds, bit by bit (R71 to R73, R76, R77). -/

namespace Sys2Proof

open Machine

/-- What the rounds can touch: the block, the working registers and the round index (R75). -/
theorem rounds_frame (n : Nat) (s : State) :
    rounds n s =
      { s with W := (rounds n s).W, a := (rounds n s).a, b := (rounds n s).b, c := (rounds n s).c,
               d := (rounds n s).d, e := (rounds n s).e, t := (rounds n s).t } := by
  induction n with
  | zero => rfl
  | succ n ih =>
    rw [rounds_succ_last, ih]
    rfl

/-- What the copy, any number of rounds and the add-back can touch: what the rounds touch, and `H` (R74 to R76). -/
theorem addBack_rounds_frame (n : Nat) (s : State) :
    let r := addBack (rounds n (beginCompression s))
    r = { s with H := r.H, W := r.W, a := r.a, b := r.b, c := r.c, d := r.d, e := r.e, t := r.t } := by
  rw [rounds_frame]
  rfl

/-- Settles O22: the loop invariant of the rounds gives `H`, the count of the rounds gives `t`, and neither the rounds nor
the add-back write another register. -/
theorem compressionComputesCompressFn : Obligations.CompressionComputesCompressFn := by
  unfold Obligations.CompressionComputesCompressFn
  exact fun s => ⟨compress_H s, compress_t s, addBack_rounds_frame 80 s⟩

/-- The comparisons with 20, 40 and 60 divide a round index by 20 (R61, R71). -/
theorem band_val {i : Nat} (hi : i < 80) : (band i).val = i / 20 := by
  unfold band
  split_ifs <;> simp <;> omega

section
variable (b c d : Word) {j : Nat}

/-- Band 0 is choice (R72). -/
theorem f_zero_getLsbD (hj : j < 32) :
    (f 0 b c d).getLsbD j = if b.getLsbD j then c.getLsbD j else d.getLsbD j := by
  simp only [f, BitVec.getLsbD_or, BitVec.getLsbD_and, BitVec.getLsbD_not, hj]
  cases b.getLsbD j <;> simp

/-- Band 1 is parity (R72). -/
theorem f_one_getLsbD : (f 1 b c d).getLsbD j = ((b.getLsbD j ^^ c.getLsbD j) ^^ d.getLsbD j) := by
  simp only [f, BitVec.getLsbD_xor]

/-- Majority of three bits, by pairs and by count. -/
theorem majority_eq_decide (x y z : Bool) :
    (x && y || x && z || y && z) = decide (2 ≤ x.toNat + y.toNat + z.toNat) := by
  revert x y z
  decide

/-- Band 2 is majority (R72). -/
theorem f_two_getLsbD :
    (f 2 b c d).getLsbD j = decide (2 ≤ (b.getLsbD j).toNat + (c.getLsbD j).toNat + (d.getLsbD j).toNat) := by
  rw [← majority_eq_decide]
  simp only [f, BitVec.getLsbD_or, BitVec.getLsbD_and]

end

/-- Settles O17: the comparisons of `band`, the table of `K`, and the bit laws of the three functions. -/
theorem bandsFunctionsAndConstants : Obligations.BandsFunctionsAndConstants := by
  unfold Obligations.BandsFunctionsAndConstants
  refine ⟨fun i hi => band_val hi, rfl, rfl, rfl, rfl, fun b c d j hj => ?_⟩
  exact ⟨f_zero_getLsbD b c d hj, f_one_getLsbD b c d, f_two_getLsbD b c d, rfl⟩

end Sys2Proof
end

section
/-! The big-endian length footer, as bytes and as words (R34, R82, R85). -/

namespace Sys2Proof.Machine

@[simp] theorem be64_length (x : BitVec 64) : (be64 x).length = 8 := by simp [be64]

/-- Byte `m` of a length, the most significant byte first (R34). -/
theorem be64_getD (x : BitVec 64) {m : Nat} (h : m < 8) : (be64 x).getD m 0#8 = x.extractLsb' (56 - 8 * m) 8 := by
  simp [be64, h]

/-- Bit `j` of a length is a bit of its byte `7 - j / 8`. -/
theorem be64_injective : Function.Injective be64 := by
  intro x y h
  refine BitVec.eq_of_getLsbD_eq fun j hj => ?_
  have byte : x.extractLsb' (56 - 8 * (7 - j / 8)) 8 = y.extractLsb' (56 - 8 * (7 - j / 8)) 8 := by
    rw [← be64_getD x (by omega), h, be64_getD y (by omega)]
  have position : 56 - 8 * (7 - j / 8) + j % 8 = j := by omega
  have inside : j % 8 < 8 := by omega
  simpa [position, inside] using congrArg (BitVec.getLsbD · (j % 8)) byte

/-- Four neighbouring bytes of a length, the most significant first, pack to the word that spans them (R34, R62). -/
theorem pack32_extractLsb' (x : BitVec 64) (k : Nat) :
    pack32 (x.extractLsb' (k + 24) 8) (x.extractLsb' (k + 16) 8) (x.extractLsb' (k + 8) 8) (x.extractLsb' k 8) =
      x.extractLsb' k 32 := by
  rw [pack32_eq_append, BitVec.extractLsb'_append_extractLsb'_eq_extractLsb' (by omega),
    BitVec.extractLsb'_append_extractLsb'_eq_extractLsb' (by omega),
    BitVec.extractLsb'_append_extractLsb'_eq_extractLsb' (by omega)]

theorem chunk_getElem (X : List Byte) {j : Nat} (h : j < 64) : (chunk X)[j] = X.getD j 0#8 :=
  Vector.getElem_ofFn h

theorem packblock_chunk_getElem (X : List Byte) {i : Nat} (h : i < 16) :
    (packblock (chunk X))[i] =
      pack32 (X.getD (4 * i) 0#8) (X.getD (4 * i + 1) 0#8) (X.getD (4 * i + 2) 0#8) (X.getD (4 * i + 3) 0#8) := by
  simp only [packblock_getElem _ i h, memRead4, chunk_getElem]

/-- The footer replaces words 14 and 15, the high half first, and no other (R82). -/
theorem writeFooter_getElem (bits : BitVec 64) (W : Vector Word 16) {i : Nat} (h : i < 16) :
    (writeFooter bits W)[i] =
      if i = 15 then bits.extractLsb' 0 32 else if i = 14 then bits.extractLsb' 32 32 else W[i] := by
  simp [writeFooter, Vector.getElem_set, eq_comm]

/-- A chunk that ends with the eight bytes of a length packs to the block with the footer, whatever the last eight bytes
were before (R82). -/
theorem packblock_chunk_be64 {X : List Byte} (hX : X.length = 56) (bits : BitVec 64) (Y : List Byte) :
    packblock (chunk (X ++ be64 bits)) = writeFooter bits (packblock (chunk (X ++ Y))) := by
  have footer : ∀ m < 8, (X ++ be64 bits).getD (56 + m) 0#8 = bits.extractLsb' (56 - 8 * m) 8 := fun m hm => by
    rw [List.getD_append_right _ _ _ _ (by omega), hX, Nat.add_sub_cancel_left, be64_getD bits hm]
  have front : ∀ Z : List Byte, ∀ j < 56, (X ++ Z).getD j 0#8 = X.getD j 0#8 := fun Z j hj =>
    List.getD_append _ _ _ _ (by omega)
  ext1 i hi
  rw [writeFooter_getElem, packblock_chunk_getElem]
  split_ifs with h15 h14
  · subst h15
    rw [footer 4 (by decide), footer 5 (by decide), footer 6 (by decide), footer 7 (by decide)]
    exact pack32_extractLsb' bits 0
  · subst h14
    rw [footer 0 (by decide), footer 1 (by decide), footer 2 (by decide), footer 3 (by decide)]
    exact pack32_extractLsb' bits 32
  · rw [packblock_chunk_getElem]
    simp (disch := omega) only [front]

/-- The fresh all-zero block is the packed chunk of zero bytes (R82, R122). -/
theorem packblock_chunk_replicate_zero : packblock (chunk (List.replicate 64 0#8)) = zeroBlock := by decide

end Sys2Proof.Machine
end

section
/-! The padded message as whole chunks, and its digest as a chain of compressions (R84, R85, R87, R96). -/

namespace Sys2Proof

open Machine

/-- The tail of a message with its padding: all that is compressed after the message's whole chunks (R85). -/
def paddedTail (T : List Byte) (bits : BitVec 64) : List Byte :=
  T ++ [terminator] ++ List.replicate (zeroFill T.length) 0#8 ++ be64 bits

/-- Whole chunks at the front change neither the zero fill nor the bytes of the tail (R85). -/
theorem paddedMessage_eq_append {F T : List Byte} (hF : F.length % 64 = 0) :
    paddedMessage (F ++ T) = F ++ paddedTail T (BitVec.ofNat 64 (8 * (F ++ T).length)) := by
  have fill : zeroFill (F ++ T).length = zeroFill T.length := by
    rw [zeroFill, zeroFill, List.length_append, Nat.add_mod, hF, Nat.zero_add, Nat.mod_mod]
  simp only [paddedMessage, paddedTail, fill, List.append_assoc]

/-- `finalize_fn` continues the chain over the padded tail: one chunk up to 55 tail bytes, two from 56 (R81, R84). -/
theorem absorbBlocks_append_paddedTail (h : Vector Word 5) {F T : List Byte} (hF : F.length % 64 = 0)
    (hT : T.length < 64) (n : Nat) :
    absorbBlocks h (F ++ paddedTail T (BitVec.ofNat 64 (n * 512 + T.length * 8))) =
      finalizeFn (absorbBlocks h F) T n := by
  generalize hbits : BitVec.ofNat 64 (n * 512 + T.length * 8) = bits
  obtain htwo | hone := Nat.lt_or_ge 56 (T.length + 1)
  · have fill : zeroFill T.length = 63 - T.length + 56 := by unfold zeroFill; omega
    have split : F ++ paddedTail T bits =
        F ++ (T ++ [terminator] ++ List.replicate (63 - T.length) 0#8) ++ (List.replicate 56 0#8 ++ be64 bits) := by
      simp only [paddedTail, fill, List.replicate_add, List.append_assoc]
    have first : (T ++ [terminator] ++ List.replicate (63 - T.length) 0#8).length = 64 := by simp; omega
    rw [split, absorbBlocks_append_chunk _ (by rw [List.length_append, first]; omega) (by simp),
      absorbBlocks_append_chunk _ hF first, packblock_chunk_be64 (by simp) bits (List.replicate 8 0#8),
      List.replicate_append_replicate, packblock_chunk_replicate_zero, finalizeFn, if_pos htwo, hbits]
  · have fill : zeroFill T.length = 55 - T.length := by unfold zeroFill; omega
    have room : 63 - T.length = 55 - T.length + 8 := by omega
    have front : (T ++ [terminator] ++ List.replicate (55 - T.length) 0#8).length = 56 := by simp; omega
    rw [paddedTail, fill, absorbBlocks_append_chunk _ hF (by rw [List.length_append, front, be64_length]),
      packblock_chunk_be64 front bits (List.replicate 8 0#8), finalizeFn, if_neg hone.not_gt, hbits, room,
      List.replicate_add, List.append_assoc (T ++ [terminator])]

/-- Settles O54: the message is its whole chunks and a tail, and `finalize_fn` continues the chain over the padded
tail. -/
theorem digestIsChainOverPaddedMessage : Obligations.DigestIsChainOverPaddedMessage := by
  unfold Obligations.DigestIsChainOverPaddedMessage
  intro M
  have front : (M.take (64 * (M.length / 64))).length = 64 * (M.length / 64) := by simp; omega
  have tail : (M.drop (64 * (M.length / 64))).length = M.length % 64 := by simp; omega
  have padded := paddedMessage_eq_append (T := M.drop (64 * (M.length / 64)))
    (show (M.take (64 * (M.length / 64))).length % 64 = 0 by omega)
  have bits : 8 * M.length = M.length / 64 * 512 + (M.drop (64 * (M.length / 64))).length * 8 := by omega
  rw [List.take_append_drop, bits] at padded
  rw [padded, absorbBlocks_append_paddedTail _ (by omega) (by omega), sha1Words]

/-- Settles O55: the zero fill completes the chunk that has room for the terminator and the footer. -/
theorem paddedMessageLength : Obligations.PaddedMessageLength := by
  unfold Obligations.PaddedMessageLength
  intro M
  have fill : zeroFill M.length < 64 ∧ (M.length + 1 + zeroFill M.length + 8) % 64 = 0 := by
    unfold zeroFill; omega
  refine ⟨?_, fill⟩
  simp [paddedMessage]
  omega

/-- Messages whose padded strings are one have one length: the same count of chunks, so that the lengths differ by
less than 64, and the same footer, so that they agree modulo `2 ^ 61` (R85). -/
theorem length_eq_of_paddedMessage_eq {M M' : List Byte} (h : paddedMessage M = paddedMessage M') :
    M.length = M'.length := by
  have chunks : 64 * ((M.length + 8) / 64 + 1) = 64 * ((M'.length + 8) / 64 + 1) := by
    rw [← (paddedMessageLength M).1, h, (paddedMessageLength M').1]
  have footers : BitVec.ofNat 64 (8 * M.length) = BitVec.ofNat 64 (8 * M'.length) :=
    be64_injective (List.append_inj_right' h (by simp))
  have numbers := congrArg BitVec.toNat footers
  simp only [BitVec.toNat_ofNat] at numbers
  omega

/-- Settles O56: the padded string begins with the message, and its footer and length fix the message's length. -/
theorem paddingIsLossless : Obligations.PaddingIsLossless := by
  unfold Obligations.PaddingIsLossless
  intro M M' hne h
  have hlen := length_eq_of_paddedMessage_eq h
  simp only [paddedMessage, List.append_assoc] at h
  exact hne (List.append_inj_left h hlen)

end Sys2Proof
end

section
/-! The pad image and the footer (R80, R82), and the command `FINAL` (R81, R83, R84). -/

namespace Sys2Proof

open Machine

/-- A list of 64 bytes is the chunk made of it. -/
theorem toList_chunk {X : List Byte} (h : X.length = 64) : (chunk X).toList = X := by
  refine List.ext_getElem (by simp [h]) fun j hj hj' => ?_
  simp [chunk, hj']

/-- Settles O25, from the pad image as a chunk and the words of the footer. -/
theorem padImageAndFooter : Obligations.PadImageAndFooter := by
  unfold Obligations.PadImageAndFooter
  refine ⟨fun TB len hlen => ?_, fun bits W => ⟨?_, ?_, fun j hj => ?_⟩⟩
  · rw [padImage_eq_chunk TB hlen, toList_chunk (by simp; omega), terminator]
  · rw [writeFooter_getElem, if_neg (by decide), if_pos rfl, BitVec.extractLsb'_toNat, Nat.shiftRight_eq_div_pow]
    exact Nat.mod_eq_of_lt (by omega)
  · rw [writeFooter_getElem, if_pos rfl, BitVec.extractLsb'_toNat, Nat.shiftRight_zero]
  · have kept := writeFooter_getElem bits W j.isLt
    rwa [if_neg (by omega), if_neg (by omega)] at kept

/-- A `FINAL` that its checks refuse (R103, R110). -/
theorem exec_final_refused {s : State} {c : Cause} (h : finalCheck s = some c) : exec .final s = .next (raise c s) := by
  rw [exec, execFinal, h, messageCommand]

/-- A `FINAL` in `ABSORB` without an error has its effect and answers `(1, 0)` (R53, R83). -/
theorem exec_final_executed {s : State} (herr : s.ERR = 0#3) (hphase : s.PHASE = .absorb) :
    exec .final s = .next (respond true 0#32 (finalEffect s)) := by
  rw [exec, execFinal, (finalCheck_none_iff s).mpr ⟨herr, hphase⟩, messageCommand]

/-- With room for the footer in the terminator's block one compression is run (R81). -/
theorem finalEffect_H_of_le {s : State} (h : s.TLEN.toNat ≤ 55) :
    (finalEffect s).H = compressFn s.H
      (writeFooter (totalBits s.NBLK s.TLEN) (packblock (padImage s.TB s.TLEN.toNat))) := by
  obtain ⟨-, heff⟩ | ⟨hlen, -⟩ := finalEffect_cases s
  · rw [heff, compress_H]
  · omega

/-- Without it two are run, the second over a zero block with the footer (R81, R122). -/
theorem finalEffect_H_of_ge {s : State} (h : 56 ≤ s.TLEN.toNat) :
    (finalEffect s).H = compressFn (compressFn s.H (packblock (padImage s.TB s.TLEN.toNat)))
      (writeFooter (totalBits s.NBLK s.TLEN) zeroBlock) := by
  obtain ⟨hlen, -⟩ | ⟨-, heff⟩ := finalEffect_cases s
  · omega
  · rw [heff, compress_H, compress_H]

/-- Settles O26: the two refusals by the checks of `FINAL`, then its effect by the length of the tail. -/
theorem finalResult : Obligations.FinalResult := by
  unfold Obligations.FinalResult
  refine fun s => ⟨fun herr => ?_, fun herr hdone => ?_, fun herr habsorb => ?_⟩
  · rw [exec_final_refused (check_of_err herr).2, raise_eq, recordError_sticky]
  · have check : finalCheck s = some .phase := by simp [finalCheck, herr, hdone]
    rw [exec_final_refused check, raise_eq, herr, recordError_zero, Cause.code, E_PHASE, Option.getD_some]
  · exact ⟨_, exec_final_executed herr habsorb, finalEffect_H_of_le, finalEffect_H_of_ge, by simp [herr]⟩

/-- Settles O27, from what `FINAL`'s effect leaves in `H`. -/
theorem finalComputesFinalizeFn : Obligations.FinalComputesFinalizeFn := by
  unfold Obligations.FinalComputesFinalizeFn
  exact fun s herr habsorb => ⟨_, exec_final_executed herr habsorb, finalEffect_H s⟩

end Sys2Proof
end

section
/-! The command `PUSHB` (R86), the chain over whole chunks, and a pushed message (R87). -/

namespace Sys2Proof

open Machine

/-- A `PUSHB` that its checks refuse (R103, R110). -/
theorem exec_pushb_refused {x : Byte} {s : State} {c : Cause} (h : pushbCheck s = some c) :
    exec (.pushb x) s = .next (raise c s) := by
  rw [exec, execPushb, h, messageCommand]

/-- A `PUSHB` that its checks let pass has its effect and answers `(1, 0)` (R53, R86). -/
theorem exec_pushb_executed {x : Byte} {s : State} (h : pushbCheck s = none) :
    exec (.pushb x) s = .next (respond true 0#32 (pushbEffect x s)) := by
  rw [exec, execPushb, h, messageCommand]

/-- The block counter's largest value, as a number (R19). -/
theorem eq_maxBlocks_iff (n : BitVec 55) : n = maxBlocks ↔ n.toNat = 2 ^ 55 - 1 := by
  simp [← BitVec.toNat_inj, maxBlocks]

/-- The 64th byte compresses the buffer as it stands with that byte stored (R86). -/
theorem pushbEffect_H_of_full (x : Byte) {s : State} (h : s.TLEN = 63#6) :
    (pushbEffect x s).H = compressFn s.H (packblock (pushbEffect x s).TB) := by
  obtain ⟨hH, -⟩ := pushbEffect_of_full x h
  rw [hH, pushbEffect_TB, memWrite_of_full x h]

/-- Settles O24: the three refusals by the checks of `PUSHB`, then its effect by the fill pointer. -/
theorem pushbResult : Obligations.PushbResult := by
  unfold Obligations.PushbResult
  refine fun x s => ⟨fun herr => ?_, fun herr hdone => ?_, fun herr habsorb hfull hlast => ?_,
    fun herr habsorb hroom => ?_, fun herr habsorb hfull hbelow => ?_⟩
  · rw [exec_pushb_refused (check_of_err herr).1, raise_eq, recordError_sticky]
  · have check : pushbCheck s = some .phase := by simp [pushbCheck, herr, hdone]
    rw [exec_pushb_refused check, raise_eq, herr, recordError_zero, Cause.code, E_PHASE, Option.getD_some]
  · have check : pushbCheck s = some .overflow := by
      simp [pushbCheck, herr, habsorb, hfull, (eq_maxBlocks_iff s.NBLK).mpr hlast]
    rw [exec_pushb_refused check, raise_eq, herr, recordError_zero, Cause.code, E_OVERFLOW, Option.getD_some]
  · have check := (pushbCheck_none_iff s).mpr ⟨herr, habsorb, fun ⟨hfull, _⟩ => hroom hfull⟩
    rw [exec_pushb_executed check, pushbEffect_of_room x hroom, respond]
  · have below : s.NBLK ≠ maxBlocks := mt (eq_maxBlocks_iff s.NBLK).mp hbelow
    have check := (pushbCheck_none_iff s).mpr ⟨herr, habsorb, fun ⟨_, hlast⟩ => below hlast⟩
    obtain ⟨-, hNBLK, hTLEN, -⟩ := pushbEffect_of_full x hfull
    have count : (pushbEffect x s).NBLK.toNat = s.NBLK.toNat + 1 := by rw [hNBLK, counter_succ_toNat below]
    exact ⟨_, exec_pushb_executed check, pushbEffect_TB x s, pushbEffect_H_of_full x hfull, count, hTLEN,
      by simp [herr, habsorb]⟩

/-- Settles O50: the first chunk is compressed first, and its bytes are not read again. -/
theorem absorbBlocksFolds : Obligations.AbsorbBlocksFolds := by
  unfold Obligations.AbsorbBlocksFolds
  refine ⟨fun _ => rfl, fun h C X hC _ => ?_⟩
  have count : (C ++ X).length / 64 = X.length / 64 + 1 := by simp; omega
  rw [absorbBlocks, count, absorbChunks, chunk_append hC.ge, List.drop_left' hC, absorbBlocks]

/-- The counters are the quotient and the remainder of the message's length by 64 (R87). -/
theorem Counts.div_mod {M : List Byte} {s : State} (h : Counts M s) :
    s.NBLK.toNat = M.length / 64 ∧ s.TLEN.toNat = M.length % 64 := by
  obtain ⟨hlen, -⟩ := h
  have := s.TLEN.isLt
  omega

/-- Settles O51: a fresh state has absorbed the empty message, and each pushed byte is appended to it. -/
theorem pushingAbsorbsTheMessage : Obligations.PushingAbsorbsTheMessage := by
  unfold Obligations.PushingAbsorbsTheMessage
  intro M s hlen hfresh hrst
  obtain ⟨t, hrun, ⟨counts, hH⟩, hPHASE, hERR, -⟩ :=
    (absorbing_nil_of_fresh hfresh hrst).runCmds_pushCmds M (by simpa using hlen)
  obtain ⟨hNBLK, hTLEN⟩ := counts.div_mod
  obtain ⟨-, htail⟩ := counts
  rw [hNBLK] at htail hH
  exact ⟨t, hrun, hNBLK, hTLEN, htail, hH, hPHASE, hERR⟩

end Sys2Proof
end

section
/-! The digest the device computes (R96), the read commands (R93 to R95), and the hex string (R90 to R92, R98). -/

namespace Sys2Proof

open Machine

/-- Settles O52: a fresh state has absorbed the empty message, the bytes are appended to it, `FINAL` leaves its digest,
and each read answers a character of it. -/
theorem deviceComputesTheDigest : Obligations.DeviceComputesTheDigest := by
  unfold Obligations.DeviceComputesTheDigest
  intro M s hlen hfresh hrst
  obtain ⟨u, hpush, absorbed⟩ := (absorbing_nil_of_fresh hfresh hrst).runCmds_pushCmds M (by simpa using hlen)
  rw [List.nil_append] at absorbed
  obtain ⟨t, hfinal, hresp, ⟨hPHASE, hERR⟩, hH, -⟩ := absorbed.issue_final
  refine ⟨t, ?_, hH, hPHASE, hERR, fun k hk => ?_⟩
  · rw [runCmds_append hpush (runCmds_singleton hfinal hresp), List.replicate_succ']
  · rw [← hH]
    exact exec_rdhex ⟨k, hk⟩ t

/-- The refusal of an index out of range, with its code as the number of R104 (R103, R106). -/
theorem indexed_illegal_eq {n : Nat} {k : Byte} (h : n ≤ k.toNat) (s : State) (read : Fin n → Word) :
    indexed n k s read =
      { s with ERR := if s.ERR = 0#3 then 2#3 else s.ERR, resp := some ⟨false, 0#32⟩ } :=
  indexed_illegal h s read

/-- Settles O28: the index is legal and its word is answered, or it is refused. -/
theorem rdhResult : Obligations.RdhResult := by
  unfold Obligations.RdhResult
  exact fun i s => ⟨fun legal => congrArg Host.Outcome.next (indexed_legal legal s _),
    fun illegal => congrArg Host.Outcome.next (indexed_illegal_eq illegal s _)⟩

/-- Hex digit `j` of a word, the most significant first, as a number (R91). -/
theorem extractLsb'_nibble_toNat (w : Word) {j : Nat} (h : j < 8) :
    (w.extractLsb' (28 - 4 * j) 4).toNat = w.toNat / 16 ^ (7 - j) % 16 := by
  have position : 28 - 4 * j = 4 * (7 - j) := by omega
  rw [BitVec.extractLsb'_toNat, Nat.shiftRight_eq_div_pow, position, Nat.pow_mul]

/-- Byte `m` of a word, the most significant first, as a number (R63). -/
theorem unpack32_getElem_toNat (w : Word) {m : Nat} (h : m < 4) :
    (unpack32 w)[m].toNat = w.toNat / 256 ^ (3 - m) % 256 := by
  have position : 24 - 8 * m = 8 * (3 - m) := by omega
  rw [unpack32_getElem w h, BitVec.extractLsb'_toNat, Nat.shiftRight_eq_div_pow, position, Nat.pow_mul]

theorem hex_getElem (h : Vector Word 5) {k : Nat} (hk : k < 40) :
    (hex h)[k] = hexdigit (h[k / 8].extractLsb' (28 - 4 * (k % 8)) 4) :=
  Vector.getElem_ofFn hk

theorem bytes20_getElem (h : Vector Word 5) {k : Nat} (hk : k < 20) :
    (bytes20 h)[k] = (unpack32 h[k / 4])[k % 4] :=
  Vector.getElem_ofFn hk

/-- The code of a hex digit: the decimal digits from `0x30` on, the letters from `0x61` on (R90). -/
theorem charCode_hexdigit_toNat (v : BitVec 4) :
    (charCode (hexdigit v)).toNat = if v.toNat ≤ 9 then 0x30 + v.toNat else 0x61 + (v.toNat - 10) := by
  revert v
  decide

/-- Settles O29: the answer is the code of the digit that the character shows, zero-extended. -/
theorem rdhexResult : Obligations.RdhexResult := by
  unfold Obligations.RdhexResult
  refine fun k s => ⟨fun legal => ⟨_, congrArg Host.Outcome.next (indexed_legal legal s _), ?_⟩,
    fun illegal => congrArg Host.Outcome.next (indexed_illegal_eq illegal s _)⟩
  rw [BitVec.toNat_setWidth_of_le (by decide), Fin.getElem_fin, hex_getElem s.H legal, charCode_hexdigit_toNat,
    extractLsb'_nibble_toNat _ (Nat.mod_lt _ (by decide))]

/-- Settles O30: the answer is the byte of the digest, zero-extended. -/
theorem rddbResult : Obligations.RddbResult := by
  unfold Obligations.RddbResult
  refine fun k s => ⟨fun legal => ⟨_, congrArg Host.Outcome.next (indexed_legal legal s _), ?_⟩,
    fun illegal => congrArg Host.Outcome.next (indexed_illegal_eq illegal s _)⟩
  rw [BitVec.toNat_setWidth_of_le (by decide), Fin.getElem_fin, bytes20_getElem s.H legal,
    unpack32_getElem_toNat _ (Nat.mod_lt _ (by decide))]

/-- Four bits of a byte of a word, as the bits of the word they are (R63). -/
theorem unpack32_getElem_extractLsb' (w : Word) {m p : Nat} (hm : m < 4) (hp : p ≤ 4) :
    (unpack32 w)[m].extractLsb' p 4 = w.extractLsb' (24 - 8 * m + p) 4 := by
  ext j hj
  have inside : p + j < 8 := by omega
  simp [unpack32_getElem w hm, inside, Nat.add_assoc]

/-- Settles O33: both characters lie in the word of the byte, and each shows one half of it. -/
theorem hexSpellsTheBytes : Obligations.HexSpellsTheBytes := by
  unfold Obligations.HexSpellsTheBytes
  intro h k hk
  have inside : k % 4 < 4 := Nat.mod_lt _ (by decide)
  rw [hex_getElem, hex_getElem, bytes20_getElem h hk, unpack32_getElem_extractLsb' _ inside (by decide),
    unpack32_getElem_extractLsb' _ inside (by decide)]
  have word : 2 * k / 8 = k / 4 ∧ (2 * k + 1) / 8 = k / 4 := by omega
  have high : 28 - 4 * (2 * k % 8) = 24 - 8 * (k % 4) + 4 := by omega
  have low : 28 - 4 * ((2 * k + 1) % 8) = 24 - 8 * (k % 4) + 0 := by omega
  simp only [word, high, low, and_self]

theorem hexdigit_mem_alphabet (v : BitVec 4) : hexdigit v ∈ "0123456789abcdef".toList := by
  revert v
  decide

/-- Settles O34: the digest spells the forty characters of the hex string, each of them a hex digit. -/
theorem digestShape : Obligations.DigestShape := by
  unfold Obligations.DigestShape
  refine fun M => ⟨by simp [digest], fun c hc => ?_⟩
  rw [digest, String.toList_ofList, Vector.mem_toList_iff] at hc
  obtain ⟨k, hk, rfl⟩ := Vector.getElem_of_mem hc
  rw [hex_getElem]
  exact hexdigit_mem_alphabet _

end Sys2Proof
end

section
/-! The system commands `INIT` (R99) and `RDCNT` (R101). -/

namespace Sys2Proof

open Machine

/-- Settles O23: `startComputation` writes these registers and no other, and the state of R11 is `iv` written out. -/
theorem initResult : Obligations.InitResult := by
  unfold Obligations.InitResult
  exact fun _ => rfl

theorem counterHalf_zero_toNat (n : BitVec 55) : (counterHalf n 0).toNat = n.toNat % 2 ^ 32 :=
  BitVec.extractLsb'_toNat ..

/-- The 23 bits above the low word are all that is left of the counter, so nothing is cut off (R101). -/
theorem counterHalf_one_toNat (n : BitVec 55) : (counterHalf n 1).toNat = n.toNat / 2 ^ 32 := by
  have := n.isLt
  rw [counterHalf, BitVec.toNat_setWidth_of_le (by decide), BitVec.extractLsb'_toNat, Nat.shiftRight_eq_div_pow]
  omega

/-- Settles O32: each of the two legal selectors answers its half of the counter, any other is refused. -/
theorem rdcntResult : Obligations.RdcntResult := by
  unfold Obligations.RdcntResult
  refine fun sel s => ⟨?_, ?_, fun illegal => congrArg Host.Outcome.next (indexed_illegal_eq illegal s _)⟩
  · rintro rfl
    exact ⟨_, congrArg Host.Outcome.next (indexed_legal (by decide) s _), counterHalf_zero_toNat s.NBLK⟩
  · rintro rfl
    exact ⟨_, congrArg Host.Outcome.next (indexed_legal (by decide) s _), counterHalf_one_toNat s.NBLK⟩

end Sys2Proof
end

section
/-! The reserved words (R52), and their refusal (R105). -/

namespace Sys2Proof

open Machine

/-- The words R52 reserves, by their two fields. -/
def Reserved (w : Cmd) : Prop :=
  opField w = 0x00#8 ∨ 0x09 ≤ (opField w).toNat ∨
    ((opField w = 0x01#8 ∨ opField w = 0x03#8 ∨ opField w = 0x07#8) ∧ argField w ≠ 0#8)

theorem decodeBare_error {arg : Byte} {i : Instr} {r : DecodeReject} (h : decodeBare arg i = .error r) :
    arg ≠ 0#8 := by
  rintro rfl
  simp [decodeBare] at h

/-- The fields of a command, each against the three ways of being reserved. -/
theorem not_reserved_of_decode {w : Cmd} {i : Instr} (h : decode w = .ok i) : ¬Reserved w := by
  obtain ⟨hop, harg⟩ := fields_of_decode h
  rw [Reserved, hop, harg]
  cases i <;> simp [opcode, operand]

/-- The branches of the decoder that reject a word. -/
theorem reserved_of_decode {w : Cmd} {r : DecodeReject} (h : decode w = .error r) : Reserved w := by
  unfold decode at h
  split_ifs at h with hinit _ hfinal _ _ _ hrdstat _
  · exact .inr (.inr ⟨.inl hinit, decodeBare_error h⟩)
  · exact .inr (.inr ⟨.inr (.inl hfinal), decodeBare_error h⟩)
  · exact .inr (.inr ⟨.inr (.inr hrdstat), decodeBare_error h⟩)
  · unfold Reserved
    bv_omega

/-- The decoder rejects the words that R52 reserves, and only they. -/
theorem decode_error_iff_reserved (w : Cmd) : (∃ r, decode w = .error r) ↔ Reserved w := by
  refine ⟨fun ⟨_, h⟩ => reserved_of_decode h, fun h => ?_⟩
  cases hd : decode w with
  | error r => exact ⟨r, rfl⟩
  | ok i => exact absurd h (not_reserved_of_decode hd)

/-- Settles O5: the decoder rejects the reserved words, and every other word spells a command. -/
theorem reservedWordsRefused : Obligations.ReservedWordsRefused := by
  unfold Obligations.ReservedWordsRefused
  refine fun w s => ⟨fun reserved => ?_, fun ⟨low, high, hbare⟩ => ?_⟩
  · obtain ⟨r, hd⟩ := (decode_error_iff_reserved w).mpr reserved
    rw [execWord, hd]
    rfl
  · cases hd : decode w with
    | ok i => exact ⟨i, rfl, by rw [execWord, hd]⟩
    | error r =>
      obtain hzero | hnine | ⟨hop, harg⟩ := reserved_of_decode hd
      · simp [hzero] at low
      · omega
      · exact absurd (hbare hop) harg

end Sys2Proof
end

section
/-! Refusals (R103): what a refused word changes, and which cause it records (R104, R109, R110). -/

namespace Sys2Proof

open Machine

/-- A word with a cause to be refused is refused for it (R103). -/
theorem execWord_refused {w : Cmd} {s : State} {c : Cause} (h : refusalOf (decode w) s = some c) :
    execWord w s = .next (raise c s) := by
  unfold execWord
  cases hd : decode w with
  | error r =>
    rw [hd] at h
    obtain rfl := Option.some.inj h
    rfl
  | ok i =>
    rw [hd] at h
    cases i with
    | init => cases h
    | pushb x => exact exec_pushb_refused h
    | final => exact exec_final_refused h
    | rdstat => simp [refusalOf, Instr.operandLegal] at h
    | rdh k | rdhex k | rddb k | rdcnt k =>
      simp only [refusalOf, Instr.operandLegal, decide_eq_true_eq, Option.ite_none_left_eq_some, Option.some.injEq] at h
      obtain ⟨illegal, rfl⟩ := h
      exact congrArg Host.Outcome.next (indexed_illegal (by omega) s _)

/-- Without a cause to be refused no word records an error. -/
theorem ERR_of_refusalOf_none {w : Cmd} {s t : State} (hw : execWord w s = .next t)
    (hnone : refusalOf (decode w) s = none) (herr : s.ERR = 0#3) : t.ERR = 0#3 := by
  have effect := effect_of_execWord hw
  generalize decode w = d at effect hnone
  cases effect with
  | refused hc => cases hnone.symm.trans hc
  | init => rfl
  | pushb _ | final _ | read _ _ _ _ => simpa using herr

/-- No two causes leave one value in `ERR`; the sticky refusal leaves 0 (R104, R109). -/
theorem recordError_zero_injective : Function.Injective (recordError 0#3) := by
  intro c c'
  cases c <;> cases c' <;> decide

theorem recordError_zero_ne_zero {c : Cause} (hc : c ≠ .sticky) : recordError 0#3 c ≠ 0#3 := fun h =>
  hc (recordError_zero_injective (h.trans (recordError_sticky 0#3).symm))

/-- A first refusal records its cause, so `ERR` tells whether the word was refused for that cause. -/
theorem ERR_eq_recordError_iff {w : Cmd} {s t : State} (hw : execWord w s = .next t) (herr : s.ERR = 0#3) {c : Cause}
    (hc : c ≠ .sticky) : t.ERR = recordError 0#3 c ↔ refusalOf (decode w) s = some c := by
  cases hr : refusalOf (decode w) s with
  | none => simp [ERR_of_refusalOf_none hw hr herr, (recordError_zero_ne_zero hc).symm]
  | some c' =>
    obtain rfl := Host.Outcome.next.inj ((execWord_refused hr).symm.trans hw)
    rw [raise_ERR, herr, recordError_zero_injective.eq_iff, Option.some.injEq]

/-- Which words are refused for which cause, while no error is recorded (R105 to R109). -/
theorem refusalOf_eq_some_iff {s : State} (herr : s.ERR = 0#3) (d : Except DecodeReject Instr) :
    (refusalOf d s = some .illegal ↔ ∃ r, d = .error r) ∧
    (refusalOf d s = some .index ↔ ∃ i, d = .ok i ∧ i.operandLegal = false) ∧
    (refusalOf d s = some .phase ↔ s.PHASE = .done ∧ (d = .ok .final ∨ ∃ x, d = .ok (.pushb x))) ∧
    (refusalOf d s = some .overflow ↔
      s.PHASE = .absorb ∧ s.TLEN = 63#6 ∧ s.NBLK.toNat = 2 ^ 55 - 1 ∧ ∃ x, d = .ok (.pushb x)) ∧
    refusalOf d s ≠ some .sticky := by
  cases d with
  | error r => simp [refusalOf]
  | ok i =>
    cases i with
    | init | rdstat | rdh _ | rdhex _ | rddb _ | rdcnt _ => simp [refusalOf, Instr.operandLegal]
    | final => cases hp : s.PHASE <;> simp [refusalOf, finalCheck, herr, hp, Instr.operandLegal]
    | pushb x =>
      cases hp : s.PHASE <;> simp [refusalOf, pushbCheck, herr, hp, Instr.operandLegal, eq_maxBlocks_iff]

/-- Settles O37: the value of `ERR` tells the cause, and the cause is decided by the word and the state. -/
theorem causeOfTheFirstRefusal : Obligations.CauseOfTheFirstRefusal := by
  unfold Obligations.CauseOfTheFirstRefusal
  intro w s t hw herr
  have recorded (c : Cause) (hc : c ≠ .sticky) := ERR_eq_recordError_iff hw herr hc
  obtain ⟨illegal, index, phase, overflow, -⟩ := refusalOf_eq_some_iff herr (decode w)
  exact ⟨(recorded .illegal nofun).trans illegal, (recorded .index nofun).trans index,
    (recorded .phase nofun).trans phase, (recorded .overflow nofun).trans overflow⟩

/-- Settles O36: of the effects of a word only the refusal answers not ok. -/
theorem refusalChangesOnlyErr : Obligations.RefusalChangesOnlyErr := by
  unfold Obligations.RefusalChangesOnlyErr
  intro w s t data hw hresp
  have effect := effect_of_execWord hw
  generalize decode w = d at effect
  cases effect with
  | @refused d c hc =>
    refine ⟨by simpa using hresp.symm, rfl, fun herr => recordError_of_ne_zero herr c, fun herr => ?_⟩
    obtain ⟨-, -, -, -, notSticky⟩ := refusalOf_eq_some_iff herr d
    have recorded : recordError 0#3 c ≠ 0#3 := recordError_zero_ne_zero fun e => notSticky (e ▸ hc)
    rw [raise_ERR, herr]
    exact ⟨by bv_omega, recordError_le (by decide) c⟩
  | init | pushb _ | final _ | read _ _ _ _ => simp at hresp

/-- Settles O40: under a recorded error a refusal records nothing, and no `PUSHB` or `FINAL` executes. -/
theorem errorBlocksTheComputation : Obligations.ErrorBlocksTheComputation := by
  unfold Obligations.ErrorBlocksTheComputation
  intro w s t hw herr hinit
  have effect := effect_of_execWord hw
  generalize decode w = d at effect hinit
  cases effect with
  | @refused d c hc => rw [raise_eq, recordError_of_ne_zero herr]
  | init => exact absurd rfl hinit
  | pushb hc => exact absurd ((pushbCheck_none_iff s).mp hc).1 herr
  | final hc => exact absurd ((finalCheck_none_iff s).mp hc).1 herr
  | read _ _ _ _ => rfl

end Sys2Proof
end

section
/-! A step of two states the host cannot tell apart (R120). -/

namespace Sys2Proof

open Machine

/-- The port offers both devices the same word, or both wait. -/
theorem Indistinguishable.serve {s s' : State} (h : Indistinguishable s s') :
    ∃ t t', serve s = .next t ∧ serve s' = .next t' ∧ Indistinguishable t t' := by
  obtain ⟨-, -, -, -, -, -, -, hoffer, -⟩ := id h
  unfold Machine.serve
  rw [← hoffer]
  cases s.offer with
  | none => exact ⟨s, s', rfl, rfl, h⟩
  | some w => exact h.takeOffer.execWord w

theorem Indistinguishable.step {s s' : State} (h : Indistinguishable s s') :
    ∃ t t', step s = .next t ∧ step s' = .next t' ∧ Indistinguishable t t' := by
  obtain ⟨-, -, -, -, -, -, hrst, -⟩ := id h
  unfold Machine.step
  rw [← hrst]
  cases s.rst with
  | false => exact h.serve
  | true => exact ⟨_, _, rfl, rfl, h.resetEvent⟩

/-- Settles O48: both states are reset, both wait, or both take the same word, and each of these keeps the registers that
agree. -/
theorem unspecifiedRegistersNeverSeen : Obligations.UnspecifiedRegistersNeverSeen := by
  unfold Obligations.UnspecifiedRegistersNeverSeen
  intro s s' t h hstep
  obtain ⟨u, t', hu, ht', htt'⟩ := h.step
  obtain rfl := Host.Outcome.next.inj (hstep.symm.trans hu)
  exact ⟨t', ht', htt'⟩

end Sys2Proof
end

section
/-! The command words (R48 to R52), and the lines that assemble to them (R54). -/

namespace Sys2Proof

/-- Settles O2: the fields of a command's word are its opcode and its operand, and they select its branch of the
decoder. -/
theorem decodeOfEncode : Obligations.DecodeOfEncode := by
  unfold Obligations.DecodeOfEncode
  exact decode_encode

/-- Settles O3: the fields of the word are the command's, and a word is its two fields. -/
theorem encodeOfDecode : Obligations.EncodeOfDecode := by
  unfold Obligations.EncodeOfDecode
  exact fun _ _ => encode_of_decode

/-- The word with the fields `op` and `n`, as R54 writes it. -/
theorem append_eq_shiftLeft_or (op : Byte) {n : Nat} (hn : n ≤ 255) :
    (op ++ BitVec.ofNat 8 n : Cmd) = op.setWidth 16 <<< 8 ||| BitVec.ofNat 16 n := by
  rw [BitVec.append_def, BitVec.shiftLeftZeroExtend_eq, BitVec.setWidth'_eq,
    BitVec.setWidth_ofNat_of_le_of_lt (by decide) (by omega)]

/-- The line of a mnemonic with its operand assembles to the command's word, which decodes to the command. -/
theorem assemble_operand {m : Mnemonic} (hm : m.takesOperand = true) {n : Nat} (hn : n ≤ 255) {op : Byte}
    (hword : encode (m.instr (BitVec.ofNat 8 n)) = op ++ BitVec.ofNat 8 n) :
    assemble (.command m (some n)) = some (op.setWidth 16 <<< 8 ||| BitVec.ofNat 16 n) ∧
      decode (op.setWidth 16 <<< 8 ||| BitVec.ofNat 16 n) = .ok (m.instr (BitVec.ofNat 8 n)) := by
  rw [← append_eq_shiftLeft_or op hn, ← hword]
  exact ⟨by simp [assemble, SourceLine.wellFormed, hm, hn], decode_encode _⟩

theorem assemble_word {n : Nat} (hn : n ≤ 0xFFFF) : assemble (.word n) = some (BitVec.ofNat 16 n) := by
  simp [assemble, SourceLine.wellFormed, hn]

/-- Settles O6: a mnemonic without an operand has one line, one with an operand has the word of its two fields. -/
theorem assembledLineDecodes : Obligations.AssembledLineDecodes := by
  unfold Obligations.AssembledLineDecodes
  refine ⟨⟨rfl, decode_encode .init⟩, ⟨rfl, decode_encode .final⟩, ⟨rfl, decode_encode .rdstat⟩, fun n hn => ?_,
    fun _ => assemble_word⟩
  exact ⟨assemble_operand (m := .PUSHB) (op := 0x02) rfl hn rfl, assemble_operand (m := .RDH) (op := 0x04) rfl hn rfl,
    assemble_operand (m := .RDHEX) (op := 0x05) rfl hn rfl, assemble_operand (m := .RDDB) (op := 0x06) rfl hn rfl,
    assemble_operand (m := .RDCNT) (op := 0x08) rfl hn rfl⟩

/-- Settles O1: ten of the words are encodings of commands, and three have fields that no branch accepts. -/
theorem tableWordsDecode : Obligations.TableWordsDecode := by
  unfold Obligations.TableWordsDecode
  exact ⟨decode_encode .init, decode_encode (.pushb 0x61), decode_encode (.pushb 0xFF), decode_encode .final,
    decode_encode (.rdh 4), decode_encode (.rdhex 39), decode_encode (.rddb 19), decode_encode .rdstat,
    decode_encode (.rdcnt 1), decode_encode (.rdh 5), rfl, rfl, rfl⟩

end Sys2Proof
end

section
/-! The block registers after a compression (R70), and the responses of a sequence (R46, R47). -/

namespace Sys2Proof

open Machine

/-- Settles O20: after 80 rounds the slots hold the last sixteen words of the schedule, and word `64 + j` has slot `j`. -/
theorem bufferAfterCompression : Obligations.BufferAfterCompression := by
  unfold Obligations.BufferAfterCompression
  intro s j
  obtain ⟨slots, -⟩ := rounds_beginCompression s le_rfl
  have index : (64 + j.val) % 16 = j.val := by omega
  rw [← slots (64 + j.val) (by omega) (by omega)]
  simp [compress, slot, index]

/-- Every issued word is answered, under `rst` after the pulse (R46, log 2). -/
theorem issue_answers (w : Cmd) (s : State) : ∃ t r, issue w s = .next t ∧ t.resp = some r := by
  rw [issue_eq]
  obtain ⟨t, ht⟩ := execWord_next w (if s.rst then resetEvent s else s).takeOffer
  obtain ⟨r, hr, -⟩ := (effect_of_execWord ht).answers
  exact ⟨t, r, ht, hr⟩

/-- Settles O57, by induction on the sequence: the first word gives one response, and a state from which the others
run. -/
theorem everyIssuedWordIsAnswered : Obligations.EveryIssuedWordIsAnswered := by
  unfold Obligations.EveryIssuedWordIsAnswered
  intro ws
  induction ws with
  | nil => exact fun s => ⟨s, [], rfl, rfl⟩
  | cons w ws ih =>
    intro s
    obtain ⟨t, r, hissue, hresp⟩ := issue_answers w s
    obtain ⟨u, rs, hrun, hlen⟩ := ih t
    exact ⟨u, r :: rs, runCmds_cons_of_resp hissue hresp hrun, congrArg (· + 1) hlen⟩

end Sys2Proof
end

section
/-! What a step is, by the port's inputs: a reset, waiting, or a command (R39, R116, R117). -/

namespace Sys2Proof.Machine

theorem execWord_of_ok {w : Cmd} {i : Instr} (h : decode w = .ok i) (s : State) : execWord w s = exec i s := by
  rw [execWord, h]

theorem execWord_of_error {w : Cmd} {r : DecodeReject} (h : decode w = .error r) (s : State) :
    execWord w s = .next (raise .illegal s) := by
  rw [execWord, h]

theorem decode_tableCmd {nbits w : Nat} {i : Instr} (h : decodeTableWord nbits w = some i) :
    decode (tableCmd nbits w) = .ok i := by
  rw [decodeTableWord, ← tableCmd] at h
  cases hd : decode (tableCmd nbits w) with
  | ok j =>
    rw [hd] at h
    exact congrArg Except.ok (Option.some.inj h)
  | error r =>
    rw [hd] at h
    cases h

section
variable {s : State}

theorem step_of_rst (h : s.rst = true) : step s = .next (resetEvent s) := by
  rw [step, if_pos h]

theorem step_of_idle (hrst : s.rst = false) (hoffer : s.offer = none) : step s = .next s := by
  simp [step, serve, hrst, hoffer]

theorem step_of_offer {w : Cmd} (hrst : s.rst = false) (hoffer : s.offer = some w) :
    step s = execWord w s.takeOffer := by
  simp [step, serve, hrst, hoffer]

end

end Sys2Proof.Machine
end

section
/-! The step and the reset at the port (R28, R46, R116, R117). -/

namespace Sys2Proof

open Machine

theorem status_of_fresh {s : State} (h : Fresh s) : status s = 0#32 := by
  obtain ⟨-, -, hTLEN, hPHASE, hERR⟩ := h
  rw [status, hTLEN, hPHASE, hERR]
  rfl

/-- Settles O7: the word is taken and executed, or refused as reserved. -/
theorem stepRunsDecodedCommand : Obligations.StepRunsDecodedCommand := by
  unfold Obligations.StepRunsDecodedCommand
  intro s w hrst hoffer
  rw [step_of_offer hrst hoffer]
  exact ⟨fun _ hd => execWord_of_ok hd _, fun _ hd => execWord_of_error hd _⟩

/-- Settles O8: `presentCmd` offers the word with `rst` released, so the step takes it. -/
theorem fetchedWordRuns : Obligations.FetchedWordRuns := by
  unfold Obligations.FetchedWordRuns
  intro s w i hd
  have taken : step (s.withFetchWord 16 w) = execWord (tableCmd 16 w) (s.withFetchWord 16 w).takeOffer :=
    step_of_offer (presentCmd_rst _ s) (presentCmd_offer _ s)
  exact taken.trans (execWord_of_ok (decode_tableCmd hd) _)

/-- Settles O9: with nothing offered the device waits. -/
theorem idleDeviceHoldsItsState : Obligations.IdleDeviceHoldsItsState := by
  unfold Obligations.IdleDeviceHoldsItsState
  exact fun _ => step_of_idle

/-- Settles O10: the pulse leaves a fresh state with the port at rest. -/
theorem resetLeavesTheResetValues : Obligations.ResetLeavesTheResetValues := by
  unfold Obligations.ResetLeavesTheResetValues
  intro s hrst
  obtain ⟨hH, hNBLK, hTLEN, hPHASE, hERR⟩ := fresh_resetEvent s
  exact ⟨resetEvent s, step_of_rst hrst, hH, hNBLK, hTLEN, hPHASE, hERR, status_of_fresh (fresh_resetEvent s),
    rfl, rfl, rfl⟩

/-- Settles O11: the pulse keeps the offer and releases `rst`, so the next step takes the word. -/
theorem resetLeavesTheOffer : Obligations.ResetLeavesTheOffer := by
  unfold Obligations.ResetLeavesTheOffer
  intro s t w hrst hoffer hstep
  obtain rfl := Host.Outcome.next.inj ((step_of_rst hrst).symm.trans hstep)
  have kept : (resetEvent s).offer = some w := (resetEvent_offer s).trans hoffer
  exact ⟨kept, step_of_offer (resetEvent_rst s) kept⟩

end Sys2Proof
end
